-- ==== Sys2Proof/Word.lean ====
section
/-! DEFINITION. The word types of the HK96: bytes, 64-bit words and lines, named once. -/

namespace Sys2Proof

/-- One byte (R8 of the notation: little-endian, bit 0 least significant). -/
abbrev Byte := BitVec 8

/-- One 64-bit word: a general register, a control-space register, a DRAM beat (R87, R11, R538). -/
abbrev W64 := BitVec 64

/-- One Aedjor instruction word (chapter 04: every instruction is one 32-bit word). -/
abbrev W32 := BitVec 32

/-- The word-aligned program counter: address bits [39:2] of an instruction.
R90 keeps bits [63:40] and [1:0] at zero, so the type holds only the bits that can be set. -/
abbrev PcWord := BitVec 38

/-- A word from a count. -/
abbrev w64 (n : Nat) : W64 := BitVec.ofNat 64 n

/-- The byte address a program counter names. -/
def pcAddr (p : PcWord) : Nat := p.toNat * 4

/-- The program counter that holds address bits [39:2] of a 64-bit value; the other bits play no part. -/
def pcOf (a : W64) : PcWord := a.extractLsb' 2 38

end Sys2Proof
end

