-- ==== Sys2Proof/Machine/Table.lean ====
section
/-! DEFINITION. Sparse tables: how the model holds the HK96's large arrays of like things, and its bytes of memory.
A table lists (index, value) pairs with rising indexes. An index it does not list holds a default that the reader names. -/

namespace Sys2Proof.Machine

/-- A sparse table from index to value. -/
abbrev Tab (α : Type) := List (Nat × α)

/-- The value at an index; `d` where the table does not list the index. -/
def tget {α : Type} (d : α) : Tab α → Nat → α
  | [], _ => d
  | (k, v) :: t, n => if k = n then v else tget d t n

/-- The value at an index, if listed. -/
def tget? {α : Type} : Tab α → Nat → Option α
  | [], _ => none
  | (k, v) :: t, n => if k = n then some v else tget? t n

/-- Put a value at an index, keeping the indexes rising. -/
def tset {α : Type} : Tab α → Nat → α → Tab α
  | [], n, v => [(n, v)]
  | (k, w) :: t, n, v =>
    if n < k then (n, v) :: (k, w) :: t
    else if n = k then (n, v) :: t
    else (k, w) :: tset t n v

/-- Forget an index. -/
def tdel {α : Type} : Tab α → Nat → Tab α
  | [], _ => []
  | (k, w) :: t, n => if k = n then tdel t n else (k, w) :: tdel t n

/-- Change the value at an index. -/
def tmod {α : Type} (d : α) (f : α → α) (t : Tab α) (n : Nat) : Tab α := tset t n (f (tget d t n))

/-- Forget every index of a half-open range. -/
def tdelRange {α : Type} (t : Tab α) (lo hi : Nat) : Tab α := t.filter fun e => !(lo ≤ e.1 && e.1 < hi)

/-- A list of byte cells in the canonical form: addresses strictly rising, no cell equal to what an unlisted
address reads as. `d` says what an unlisted address reads as. -/
def memGet (d : Nat → Byte) : List Host.Cell → Nat → Byte
  | [], a => d a
  | (k, v) :: t, a => if k = a then v else memGet d t a

/-- Write one byte, keeping the canonical form: writing the default removes the cell. -/
def memSet (d : Nat → Byte) : List Host.Cell → Nat → Byte → List Host.Cell
  | [], a, v => if v = d a then [] else [(a, v)]
  | (k, w) :: t, a, v =>
    if a < k then (if v = d a then (k, w) :: t else (a, v) :: (k, w) :: t)
    else if a = k then (if v = d a then t else (a, v) :: t)
    else (k, w) :: memSet d t a v

/-- Every address of a half-open range goes back to its default. -/
def memClear (m : List Host.Cell) (lo hi : Nat) : List Host.Cell := m.filter fun e => !(lo ≤ e.1 && e.1 < hi)

/-- The canonical form of a cell list above a lower bound. -/
def memWfFrom (d : Nat → Byte) : Nat → List Host.Cell → Bool
  | _, [] => true
  | lo, (k, v) :: t => decide (lo ≤ k) && decide (v ≠ d k) && memWfFrom d (k + 1) t

/-- The canonical form of a cell list. -/
def memWf (d : Nat → Byte) (m : List Host.Cell) : Bool := memWfFrom d 0 m

end Sys2Proof.Machine
end

