-- ==== Sys2Proof/Machine/StCore.lean ====
section
/-! DEFINITION. State of the cores, threads, scheduler, mailboxes and locks (chapters 03 to 05). -/

namespace Sys2Proof.Machine

/-- The three rings of R81. -/
inductive Ring where
  | r0 | r1 | r2
deriving DecidableEq, Repr

/-- A requester of a register access: its ring, its slice (ring 2), its thread, and whether it is the debug port
(DBGACC acts with ring 0 rights, R615). -/
structure Who where
  ring  : Ring
  slice : Nat
  tcb   : Nat
  dbg   : Bool
deriving DecidableEq, Repr

/-- The states of a thread control block (R176). -/
inductive TState where
  | free | idle | ready | running | waiting | stopped
deriving DecidableEq, Repr

/-- What a WAITING thread waits in (R179 WAITKIND). -/
inductive WaitKind where
  | none | waitwork | sleep | jobWait | dgsFinish
deriving DecidableEq, Repr

/-- A pending multiplier product: how many more instructions retire before it lands, and its two halves (R121). -/
structure Product where
  left : Nat
  hi   : W64
  lo   : W64
deriving DecidableEq, Repr

/-- A pending compatibility-mode load (R123). -/
structure PendLoad where
  left : Nat
  rd   : BitVec 5
  val  : W64
deriving DecidableEq, Repr

/-- Why a thread is held on its core at an instruction that has not completed. -/
inductive Hold where
  /-- nothing held -/
  | none
  /-- a load of GRN_ALLOC_c that R59 and R60 do not permit yet (R62), with the destination register -/
  | alloc (cls : Nat) (rd : BitVec 5)
  /-- a POST whose event cannot be accepted yet (R196) -/
  | post (ev : Nat)
  /-- a mailbox post or doorbell store whose summary raise cannot be accepted yet (R196) -/
  | mbox (m : Nat)
deriving DecidableEq, Repr

/-- What a thread off its core receives when its waited instruction completes at its next dispatch. -/
inductive Wake where
  | none
  /-- WAITWORK completes with an event number (R152) -/
  | event (e : Nat)
  /-- SLEEP completes (R155) -/
  | slept
  /-- YIELD completes (R153) -/
  | yielded
  /-- JOB.WAIT or DGS.FINISH completes with a value for its destination (R165, R168) -/
  | value (v : W64)
deriving DecidableEq, Repr

/-- One thread: its control block (R176 to R180) and its registers (R87 to R93). -/
structure Thr where
  state    : TState
  ring     : Ring
  ldc      : Bool
  /-- charged to a slice (allocated through SCH_TCB_ALLOC_s) -/
  ofSlice  : Bool
  slice    : Nat
  prio     : Nat
  /-- the priority that TS_PRIO shows: the one in force since the last arrival (R190) -/
  curPrio  : Nat
  waitKind : WaitKind
  err      : Nat
  stopPend : Bool
  core     : Nat
  mask     : W64
  entry    : PcWord
  handler  : PcWord
  arg      : W64
  /-- ticks spent READY since the last START or RESTART (R178) -/
  waitTime : Nat
  xrec     : W64
  wn       : Tab W64
  g        : Tab W64
  p        : Tab Bool
  pl       : W64
  ph       : W64
  pc       : PcWord
  xpc      : PcWord
  xc       : W64
  xa       : W64
  exc      : Bool
  prods    : List Product
  pload    : Option PendLoad
  savProds : List Product
  savLoad  : Option PendLoad
  /-- destination register of the waited instruction -/
  waitRd   : BitVec 5
  /-- deadline of SLEEP -/
  deadline : Nat
  /-- job handle of JOB.WAIT, context of DGS.FINISH -/
  waitOn   : W64
  /-- destination address of DGS.FINISH -/
  waitAddr : Nat
  wake     : Wake
  hold     : Hold
  /-- instructions retired since dispatch to the present spikelet (R494) -/
  retired  : Nat
  /-- DELETE accepted; the block returns to FREE when its jobs and contexts are done (R185) -/
  deleting : Bool
deriving DecidableEq, Repr

/-- A block as SCH_TCB_ALLOC leaves it: IDLE fields at their reset values; here in state FREE. -/
def Thr.reset : Thr :=
  { state := .free, ring := .r0, ldc := false, ofSlice := false, slice := 0, prio := 31, curPrio := 31,
    waitKind := .none, err := 0, stopPend := false, core := 0, mask := 0, entry := 0, handler := 0, arg := 0,
    waitTime := 0, xrec := 0, wn := [], g := [], p := [], pl := 0, ph := 0, pc := 0, xpc := 0, xc := 0, xa := 0,
    exc := false, prods := [], pload := .none, savProds := [], savLoad := .none, waitRd := 0, deadline := 0,
    waitOn := 0, waitAddr := 0, wake := .none, hold := .none, retired := 0, deleting := false }

/-- One core: tiller t is core t, culm c is core 64 + c (R91). -/
structure Core where
  thr    : Option Nat
  /-- halted by debug (R612) -/
  halted : Bool
  /-- off: before boot starts it, or stopped by limp mode (R577) -/
  off    : Bool
  /-- it asked for work, found none, and waits (R188) -/
  asking : Bool
  /-- stamp at which it took its thread (R199) -/
  since  : Nat
deriving DecidableEq, Repr

def Core.reset : Core := { thr := none, halted := false, off := false, asking := true, since := 0 }

/-- One event register (R192). -/
structure Evt where
  bound    : Bool
  deleg    : Bool
  assigned : Bool
  slice    : Nat
  tcb      : Nat
  pend     : Nat
deriving DecidableEq, Repr

def Evt.reset : Evt := { bound := false, deleg := false, assigned := false, slice := 0, tcb := 0, pend := 0 }

/-- One timer (R198). -/
structure Tmr where
  cmp   : W64
  armed : Bool
deriving DecidableEq, Repr

def Tmr.reset : Tmr := { cmp := BitVec.allOnes 64, armed := true }

/-- A thread in the ready lists: its level and its arrival stamp (R184, R186).
The lists it stands in follow from its ring and mask, which do not change while it is READY (R180). -/
structure Rdy where
  tcb   : Nat
  level : Nat
  stamp : Nat
deriving DecidableEq, Repr

/-- Something the scheduler holds until it can accept it (R191, R196). -/
inductive HeldRaise where
  /-- a hardware source's event -/
  | ev (e : Nat)
  /-- a POST by the thread that is held on its core -/
  | post (e tcb : Nat)
  /-- an increase of a mailbox's pending count; `tcb` is the held sender's thread, if a thread sent it -/
  | mbx (m : Nat) (tcb : Option Nat)
  /-- a readiness with no event: START, YIELD, SLEEP, JOB.WAIT or DGS.FINISH -/
  | ready (tcb : Nat)
deriving DecidableEq, Repr

/-- Ready-list count of a slice (R199 SCH_SLOBS_s). -/
structure SlObs where
  maxReady : Nat
  busy     : Nat
deriving DecidableEq, Repr

def SlObs.reset : SlObs := { maxReady := 0, busy := 0 }

/-- The hardware scheduler (chapter 05). -/
structure Sch where
  thrs     : Tab Thr
  cores    : Tab Core
  events   : Tab Evt
  timers   : Tab Tmr
  /-- every READY thread in arrival order -/
  ready    : List Rdy
  /-- highest depth per list since last read, list 32g + l (R199) -/
  rdyMax   : Tab Nat
  /-- ready-list entries in the pool (R191; 128 in limp mode, R579) -/
  pool     : Nat
  held     : List HeldRaise
  obsStart : W64
  obsEnd   : W64
  obsDone  : Bool
  /-- a window has been opened by a write and END is not reached yet (R199) -/
  obsOpen  : Bool
  busy     : Tab Nat
  slobs    : Tab SlObs
deriving DecidableEq, Repr

def Sch.reset : Sch :=
  { thrs := [], cores := [], events := [], timers := [], ready := [], rdyMax := [], pool := 8192, held := [],
    obsStart := 0, obsEnd := 0, obsDone := false, obsOpen := false, busy := [], slobs := [] }

/-- A party of a mailbox (R201, R207). -/
inductive Party where
  | ring0 | ring1 | slice (s : Nat)
deriving DecidableEq, Repr

/-- One mailbox (R202 to R207). -/
structure Box where
  msg     : W64
  full    : Bool
  overrun : Bool
  timeout : Bool
  badptr  : Bool
  pend    : Nat
  bells   : W32
  dbmask  : W32
  tmo     : Nat
  bound   : Bool
  tcb     : Nat
  snd     : Party
  rcv     : Party
  /-- the open timeout window [start, end) of a posted message -/
  window  : Option (Nat × Nat)
deriving DecidableEq, Repr

/-- The parties that R201 gives mailbox m; an internal mailbox's fields reset to zero, which names ring 0 (R202, R207). -/
def partySnd (m : Nat) : Party := if m < 256 then .slice m else if m < 512 then .ring1 else .ring0
/-- The receiver party that R201 gives mailbox m. -/
def partyRcv (m : Nat) : Party := if m < 256 then .ring1 else if m < 512 then .slice (m - 256) else .ring0

/-- Mailbox m at reset (R202). -/
def Box.reset (m : Nat) : Box :=
  { msg := 0, full := false, overrun := false, timeout := false, badptr := false, pend := 0, bells := 0, dbmask := 0,
    tmo := 1000000, bound := false, tcb := 0, snd := partySnd m, rcv := partyRcv m, window := none }

/-- One lock register and its assignment (R42, R210, R211). -/
structure Lock where
  /-- the owner's identity, zero while free -/
  owner    : W64
  assigned : Bool
  slice    : Nat
deriving DecidableEq, Repr

def Lock.reset : Lock := { owner := 0, assigned := false, slice := 0 }

/-- The mailbox block. -/
structure Mbx where
  boxes     : Tab Box
  locks     : Tab Lock
  lockFault : Nat
deriving DecidableEq, Repr

def Mbx.reset : Mbx := { boxes := [], locks := [], lockFault := 0 }

end Sys2Proof.Machine
end

