-- ==== Sys2Proof/Machine/StGrn.lean ====
section
/-! DEFINITION. State of the granary and the books (chapter 02), and of the SYS block (chapter 03). -/

namespace Sys2Proof.Machine

/-- State of a buffer (R55). -/
inductive BufState where
  | free | owned | transit
deriving DecidableEq, Repr

/-- The four attributes of a buffer (R55, R57). -/
structure Buf where
  state   : BufState
  owner   : BitVec 16
  cls     : Nat
  charged : Option Nat
  /-- the stored complement of the attributes agrees with them (R55, R597 class 6) -/
  cplOk   : Bool
deriving DecidableEq, Repr

def Buf.reset : Buf := { state := .free, owner := 0, cls := 0, charged := none, cplOk := true }

/-- One credit class (R58, R61). -/
structure Cls where
  held   : Nat
  hwm    : Nat
  ceil   : Nat
  floor  : Nat
  locked : Bool
deriving DecidableEq, Repr

/-- Class c at reset (R58). -/
def Cls.reset (c : Nat) : Cls :=
  { held := 0, hwm := 0, ceil := if c = 6 then 4096 else 12288,
    floor := if c = 3 then 2048 else if c ≤ 4 then 1024 else 0, locked := false }

/-- One ledger of the books (R70, R71, R75) with its stored complements and its open named moments (R72, R77). -/
structure Ledger where
  free     : Nat
  held     : Nat
  transit  : Nat
  total    : Nat
  hwm      : Nat
  /-- stored complement of the word {HELD, FREE} -/
  cpl      : W64
  /-- stored complement of TRANSIT -/
  cplT     : W32
  /-- open named moments: the item, and its age in the unit of R72 -/
  moments  : List (Nat × Nat)
deriving DecidableEq, Repr

/-- The word {HELD, FREE} of a ledger (R75 +0x00). -/
def ledgerWord (free held : Nat) : W64 := BitVec.ofNat 32 held ++ BitVec.ofNat 32 free

/-- A ledger with everything free. -/
def Ledger.full (total : Nat) : Ledger :=
  { free := total, held := 0, transit := 0, total := total, hwm := 0, cpl := ~~~(ledgerWord total 0),
    cplT := ~~~(0 : W32), moments := [] }

/-- Ledger k at reset (R70). The PTOK pool resets to 3,072 (R389). The LCRD totals are set at training: zero before. -/
def Ledger.reset (k : Nat) : Ledger :=
  Ledger.full (match k with
    | 0 => 12288 | 1 => 65536 | 2 => 32768 | 3 => 8192 | 4 => 4096 | 5 => 512 | 6 => 256 | 7 => 64
    | 8 => 16777216 | 9 => 3072 | _ => 0)

/-- A slice sub-ledger (R76). -/
structure Slq where
  quota : Nat
  held  : Nat
deriving DecidableEq, Repr

def Slq.reset : Slq := { quota := 0, held := 0 }

/-- A reader held on GRN_ALLOC_c (R62, R65): a thread with a destination register, or a requester of a register access. -/
structure HeldAlloc where
  who : Who
  cls : Nat
  /-- the reader is the load of a thread, which is held on its core -/
  thread : Bool
deriving DecidableEq, Repr

/-- The granary block. -/
structure Grn where
  bufs     : Tab Buf
  cls      : Tab Cls
  ledgers  : Tab Ledger
  slq      : Tab Slq
  /-- TCBs and tokens charged per slice: the slice sub-ledgers of TCB (R77) -/
  tcbOf    : Tab Nat
  faultCnt : Nat
  audSlice : Nat
  audCpl   : Bool
  audSub   : Bool
  audMask  : BitVec 14
  held     : List HeldAlloc
  /-- buffers in TRANSIT: handle, giver, receiver and age in handshake steps (R72, R73) -/
  handoffs : List (Nat × BitVec 16)
deriving DecidableEq, Repr

/-- A SYSTEM buffer held by an owner with no slice charged. -/
def sysBuf (owner : BitVec 16) : Buf := { state := .owned, owner := owner, cls := 0, charged := none, cplOk := true }

/-- The granary at reset: the scheduler has taken 512 SYSTEM buffers for its thread control blocks (R175); buffers 0 to 511
(DESIGN CHOICE: R49 leaves open which). -/
def Grn.reset : Grn :=
  { bufs := (List.range 512).map fun k => (k, sysBuf 0xC000)
    cls := [(0, { Cls.reset 0 with held := 512, hwm := 512 })]
    ledgers := [(0, { Ledger.full 12288 with free := 11776, held := 512, hwm := 512, cpl := ~~~(ledgerWord 11776 512) })]
    slq := [], tcbOf := [], faultCnt := 0, audSlice := 0, audCpl := false, audSub := false, audMask := 0, held := [], handoffs := [] }

/-- A protected range (R103). -/
structure FwProt where
  valid  : Bool
  limit  : BitVec 28
  base   : BitVec 28
  locked : Bool
deriving DecidableEq, Repr

def FwProt.reset : FwProt := { valid := false, limit := 0, base := 0, locked := false }

/-- The SYS block: protected ranges and the reserved-write record (R103, R119), and the grade fuse (R5). -/
structure Sys where
  grade    : BitVec 2
  fwprot   : Tab FwProt
  rsvFlag  : Bool
  rsvKind  : Bool
  rsvRing  : Nat
  rsvCount : Nat
  rsvAddr  : BitVec 40
deriving DecidableEq, Repr

/-- The answer of the last register access that no thread's load receives (model state: where a REGISTER access from a
ring's own command, DBGACC, the I2C port or a management read leaves its value). -/
inductive Answer where
  | none
  | value (v : W64)
  | done
  /-- not performed: CONTROL-DENIED with detail 1 (read) or 2 (write) -/
  | denied (detail : Nat)
  /-- BUS-ERROR with its detail -/
  | busError (detail : Nat)
  /-- INTEGRITY: the access met an integrity alarm of a class (R598) -/
  | integrity (cls : Nat)
  /-- held: the access completes later -/
  | held
deriving DecidableEq, Repr

end Sys2Proof.Machine
end

