-- ==== Sys2Proof/Machine/StMem.lean ====
section
/-! DEFINITION. State of the caches and memory codes (chapter 15), the DRAM (chapter 16) and the firmware array (chapter 17). -/

namespace Sys2Proof.Machine

/-- A valid cache line. Its tag and set follow from the line number `base` = address / 64 (R508).
`chk` lists the bytes whose stored check bits differ from the code of R523 for their data. -/
structure Line where
  base  : Nat
  way   : Nat
  dirty : Bool
  data  : BitVec 512
  chk   : Tab (BitVec 5)
  /-- moment of last use, in accesses of this cache: the least is the least recently used line (R515) -/
  used  : Nat
deriving DecidableEq, Repr

/-- One cache with its masks, locks, counts and eviction buffer (R508, R514 to R519). -/
structure Cache where
  lines : List Line
  clock : Nat
  masks : Tab (BitVec 16)
  lock  : BitVec 16
  hit   : Nat
  miss  : Nat
  /-- eviction buffer, oldest first -/
  evict : List Line
deriving DecidableEq, Repr

def Cache.reset : Cache := { lines := [], clock := 0, masks := [], lock := 0, hit := 0, miss := 0, evict := [] }

/-- Misses of one thread on ascending consecutive lines of one page (R517). -/
structure MissRun where
  last  : Nat
  count : Nat
deriving DecidableEq, Repr

def MissRun.reset : MissRun := { last := 0, count := 0 }

/-- All the caches. -/
structure Cch where
  l1i   : Tab Cache
  l1d   : Tab Cache
  sheaf : Tab Cache
  mapc  : Cache
  runs  : Tab MissRun
deriving DecidableEq, Repr

def Cch.reset : Cch := { l1i := [], l1d := [], sheaf := [], mapc := Cache.reset, runs := [] }

/-- Error counts of one memory class (R528). -/
structure EccCnt where
  corr   : Nat
  uncorr : Nat
  poison : Nat
deriving DecidableEq, Repr

def EccCnt.reset : EccCnt := { corr := 0, uncorr := 0, poison := 0 }

/-- One chaff-table entry (R529). -/
structure Chaff where
  cls   : Nat
  lanes : BitVec 8
  loc   : BitVec 40
  count : Nat
  first : BitVec 48
deriving DecidableEq, Repr

/-- Scrub modes (R530). -/
inductive ScrubMode where
  | survey | repair
deriving DecidableEq, Repr

/-- The scrubber (R530 to R533). Addresses are byte addresses. -/
structure Scrub where
  start    : Nat
  stop     : Nat
  mode     : ScrubMode
  pace     : Nat
  running  : Bool
  done     : Bool
  stopped  : Bool
  reached  : Nat
  /-- no 64 B read before this tick -/
  nextAt   : Nat
  corr     : Nat
  uncorr   : Nat
  caddr    : List Nat
  uaddr    : List Nat
deriving DecidableEq, Repr

def Scrub.reset : Scrub :=
  { start := 0, stop := 0, mode := .survey, pace := 0, running := false, done := false, stopped := false, reached := 0,
    nextAt := 0, corr := 0, uncorr := 0, caddr := [], uaddr := [] }

/-- The ECC block. -/
structure Ecc where
  cnt      : Tab EccCnt
  chaff    : Tab Chaff
  ovf      : Nat
  /-- event 681 has been raised since the last clear -/
  ovfSeen  : Bool
  scrub    : Scrub
  stDone   : Bool
  stFail   : Bool
  stCls    : Nat
  stUnit   : Nat
  stNfail  : Nat
deriving DecidableEq, Repr

def Ecc.reset : Ecc :=
  { cnt := [], chaff := [], ovf := 0, ovfSeen := false, scrub := Scrub.reset, stDone := false, stFail := false,
    stCls := 0, stUnit := 0, stNfail := 0 }

/-- Rank states (R556). -/
inductive RankState where
  | off | training | filling | service | standby | copying | migrating | retired | failed
deriving DecidableEq, Repr

/-- One DRAM rank and its controller. -/
structure Rank where
  state   : RankState
  serves  : Option Nat
  selfref : Bool
  trained : Nat
  mr4     : Nat
  xmap    : Tab (BitVec 33)
  /-- 1 MiB regions filled so far (R547) -/
  filled  : Nat
  uncorr  : Nat
  tagmis  : Nat
  poison  : Nat
  train   : Nat
  bursts  : Nat
  /-- refresh multiplier in force and refresh intervals since MR4 was read (R545) -/
  mult    : Nat
  since   : Nat
deriving DecidableEq, Repr

/-- Rank q at reset (R537, R556). The multiplier is 1. -/
def Rank.reset (q : Nat) : Rank :=
  { state := .off, serves := if q < 4 then some q else none, selfref := false, trained := 0, mr4 := 0,
    xmap := [(0, 0x2000), (1, 0x4000), (2, 0x8000), (3, 0x10000)], filled := 0, uncorr := 0, tagmis := 0, poison := 0,
    train := 0, bursts := 0, mult := 1, since := 0 }

/-- The DRAM controllers (R556). -/
structure Drc where
  ranks   : Tab Rank
  mode    : Nat
  spared  : Option Nat
  lost    : Option Nat
  /-- a second range is lost (R553) -/
  lost2   : Bool
  migpos  : Nat
  /-- rank whose contents migrate -/
  migrating : Option Nat
deriving DecidableEq, Repr

def Drc.reset : Drc :=
  { ranks := [], mode := 0, spared := none, lost := none, lost2 := false, migpos := 0, migrating := none }

/-- Operations of the firmware array (R563). -/
inductive FwaKind where
  | program | clear | erase
deriving DecidableEq, Repr

/-- An operation of the firmware array: running, suspended or held. -/
structure FwaOp where
  kind : FwaKind
  off  : Nat
  src  : Nat
  /-- start of its running window: issue or last resume (R565) -/
  from_ : Nat
deriving DecidableEq, Repr

/-- A staging in the inactive bank (R580): which sectors it has erased and which units it has programmed. -/
structure Staging where
  sectors : List Nat
  units   : List Nat
  image   : W64
deriving DecidableEq, Repr

/-- Phases of an activation (R282, R580). -/
inductive ActPhase where
  /-- accepted and checked; started work drains -/
  | drain
  /-- the culms run the new image; the window waits for CONFIRM -/
  | trial (start : Nat)
  /-- limp mode: the module resets once the completion has been transmitted (R578) -/
  | leaving
deriving DecidableEq, Repr

/-- The activation in progress. -/
structure Act where
  /-- operation tag of the FIRMWARE-ACTIVATE command -/
  tag      : Nat
  phase    : ActPhase
  bank     : Nat
  fallback : Nat
deriving DecidableEq, Repr

/-- The firmware array block (R581) with the fuses it burns (R572). -/
structure Fwa where
  src      : Nat
  op       : Option FwaOp
  susp     : Option FwaOp
  /-- the suspended erase resumes by itself when VIN recovers: the FWA block suspended it, or a RESUME is held (R567) -/
  suspSag  : Bool
  heldCmd  : Option FwaOp
  last     : Nat
  suspN    : Nat
  offset   : Nat
  sense    : Nat
  raise    : Nat
  lowreq   : Nat
  lowdone  : Nat
  sealed   : Bool
  /-- fuse writes waiting for the supply: 1 RAISE, 2 SEAL, 3 LOWER (R567, R588) -/
  heldFuse : List Nat
  bank     : Nat
  failover : Bool
  trial    : Bool
  limp     : Bool
  limpCause : Nat
  image    : W64
  vfail    : Nat
  selfbank : Nat
  suspread : Nat
  abandon  : Nat
  staging  : Option Staging
  act      : Option Act
  /-- highest SEQ of the record log (R569) -/
  seq      : Nat
  /-- boot record of R576 and the stamps of the boot steps (log 0x50, R578) -/
  bootRec  : List Byte
  bootAt   : Tab Nat
  /-- ranks that a RETIRE record names (R550, R569) -/
  retired  : List Nat
  /-- ranks whose TRAIN record stands in the log (R548) -/
  trained  : List Nat
deriving DecidableEq, Repr

/-- The firmware array at reset: registers as R581, no fuse burned (DESIGN CHOICE: fuses have no reset value). -/
def Fwa.reset : Fwa :=
  { src := 0, op := none, susp := none, suspSag := false, heldCmd := none, last := 0, suspN := 0, offset := 0, sense := 15, raise := 0,
    lowreq := 0, lowdone := 0, sealed := false, heldFuse := [], bank := 0, failover := false, trial := false, limp := false,
    limpCause := 0, image := 0, vfail := 0, selfbank := 0, suspread := 0, abandon := 0, staging := none, act := none,
    seq := 0, bootRec := [], bootAt := [], retired := [], trained := [] }

/-- The stored bytes of the granary, the DRAM and the firmware array. -/
structure Mem where
  /-- bytes that differ from what an unlisted address reads as -/
  cells : List Host.Cell
  /-- check bits that differ from the code of R523 for the byte's data -/
  chk   : Tab (BitVec 5)
  /-- DRAM words whose stored tag differs from R539, by word address (byte address / 8) -/
  tags  : Tab Byte
deriving DecidableEq, Repr

def Mem.reset : Mem := { cells := [], chk := [], tags := [] }

end Sys2Proof.Machine
end

