-- ==== Sys2Proof/Machine/StPwr.lean ====
section
/-! DEFINITION. State of the supply and alarms (chapter 18), freeze and debug (chapter 19), the test access port and the lands
(chapters 19 and 20), the core voltage (chapter 01) and the time base. -/

namespace Sys2Proof.Machine

/-- A stored value that moves with its complement and has no flag of its own beside it (R597): an overlap row, the indices of a queue
pair, a command entry, the descriptor copy of a slice, a thread control block, a die's token count, a binding entry, a measurement
register. -/
inductive Stored where
  | overlap (asn : Nat)
  | queue (q : Nat)
  | command (tag : Nat)
  | slice (s : Nat)
  | block (k : Nat)
  | tokens (d : Nat)
  | binding (k : Nat)
  | measure (n : Nat)
deriving DecidableEq, Repr

/-- The PWR block (R28, R29, R601). -/
structure Pwr where
  req       : Nat
  throt     : Nat
  settling  : Bool
  vinMv     : Nat
  holdOpen  : Bool
  inhibit   : Bool
  warn      : Bool
  thrWarn   : Nat
  thrInh    : Nat
  holdStart : Nat
  windows   : Nat
  expired   : Nat
  /-- the hold rules apply from 112 °C (R596) -/
  hotHold   : Bool
  stop      : Bool
  alarmEvt  : W32
  alertMask : W32
  railLast  : Nat
  railFlt   : BitVec 8
  /-- rails now inside ±5 % (PWR_GOOD, R586) -/
  railsGood : Bool
  tempQ     : W32
  tempD     : BitVec 40
  firstValid : Bool
  firstCls  : Nat
  firstLoc  : BitVec 40
  /-- values that disagree with their complement and that nothing has read since (R597) -/
  mism      : List Stored
  /-- held in reset by the 120 °C reset (R596) -/
  hotReset  : Bool
  /-- VIN is below VIN valid: the module is in reset (R584, R591) -/
  noVin     : Bool
deriving DecidableEq, Repr

def Pwr.reset : Pwr :=
  { req := 1, throt := 0, settling := false, vinMv := 0, holdOpen := false, inhibit := false, warn := false,
    thrWarn := 2650, thrInh := 2600, holdStart := 0, windows := 0, expired := 0, hotHold := false, stop := false,
    alarmEvt := 0, alertMask := 0xF4058000, railLast := 0, railFlt := 0, railsGood := false, tempQ := 0, tempD := 0,
    firstValid := false, firstCls := 0, firstLoc := 0, mism := [], hotReset := false, noVin := false }

/-- One breakpoint (R617). -/
structure Bp where
  en    : Bool
  rings : BitVec 3
  addr  : PcWord
deriving DecidableEq, Repr

def Bp.reset : Bp := { en := false, rings := 0, addr := 0 }

/-- The DBG block (R617). Halted cores are shown by the cores themselves. -/
structure Dbg where
  frozen   : Bool
  frzPin   : Bool
  frzCmd   : Bool
  entering : Bool
  count    : Nat
  /-- stamp of the entry in progress, or of the last one -/
  entryAt  : Nat
  frzStart : Nat
  frzNand  : Tab W64
  bps      : Tab Bp
  /-- event sources asserted while the fabric was frozen (R607), oldest first -/
  asserted : List Nat
  /-- the last debug access (R615): performed, its address, its data -/
  accOk    : Bool
  accAddr  : BitVec 40
  accData  : W64
deriving DecidableEq, Repr

def Dbg.reset : Dbg :=
  { frozen := false, frzPin := false, frzCmd := false, entering := false, count := 0, entryAt := 0, frzStart := 0, frzNand := [],
    bps := [], asserted := [], accOk := false, accAddr := 0, accData := 0 }

/-- The instructions of the test access port (R614). -/
inductive TapIr where
  | extest | samplePreload | idcode | clamp | highz | dbgacc | bypass
deriving DecidableEq, Repr

/-- Codes of the instructions (R614). -/
def TapIr.code : TapIr → BitVec 8
  | .extest => 0x00 | .samplePreload => 0x01 | .idcode => 0x02 | .clamp => 0x03 | .highz => 0x04 | .dbgacc => 0x10 | .bypass => 0xFF

/-- The test access port: its instruction register, what the selected data register has captured, and the boundary-scan update latches. -/
structure Tap where
  ir   : TapIr
  dr   : BitVec 2696
  bsr  : BitVec 2696
deriving DecidableEq, Repr

/-- The port after Test-Logic-Reset: IDCODE is selected (R614), which captures 0x1B96_A0F3 (R6). The latches hold zero (DESIGN CHOICE). -/
def Tap.reset : Tap := { ir := .idcode, dr := 0x1B96A0F3, bsr := 0 }

/-- Lands and ports that the model drives or samples (R614, R625, R626). -/
structure Lands where
  /-- nRESET is held low -/
  nresetLow : Bool
  /-- what the last I2C transaction returned -/
  i2c       : W64
  /-- the I2C port did not acknowledge -/
  i2cNack   : Bool
deriving DecidableEq, Repr

def Lands.reset : Lands := { nresetLow := false, i2c := 0, i2cNack := false }

end Sys2Proof.Machine
end

