-- ==== Sys2Proof/Machine/StHost.lean ====
section
/-! DEFINITION. State of the Ziarver link (chapter 06), the host queues and commands (chapter 07) and the slices (chapter 08). -/

namespace Sys2Proof.Machine

/-- Link states (R245). -/
inductive LinkState where
  | detect | poll | config | active | recovery | lowpower | hold
deriving DecidableEq, Repr

/-- A completion (R259, R260). -/
structure Cqe where
  qp     : Nat
  idx    : Nat
  phase  : Bool
  asn    : Nat
  status : Nat
  cid    : Nat
  qid    : Nat
  result : Nat
  procid : Nat
  /-- operation tag of the command, none for a command that took none (R258) -/
  tag    : Option Nat
  notice : Bool
  /-- posted in one of the 64 reserved entries of R258 -/
  rsvd   : Bool
  /-- posted again in a new session after it had been transmitted: its credits have gone back already (R281) -/
  again  : Bool
deriving DecidableEq, Repr

/-- A flit as the transmitter keeps it for replay (R222 to R228). CINC and CCLS are kept, ACK is refreshed at each sending
of a HOLD flit and otherwise kept as first sent (R228). -/
structure TxFlit where
  seq     : Nat
  ftype   : Nat
  cinc    : Nat
  ccls    : Nat
  ack     : Nat
  payload : BitVec 960
  /-- completions whose last byte this flit carries (R281) -/
  cqs     : List Cqe
  /-- commands, by ASN, with DWR bytes in this flit (R281) -/
  dws     : List Nat
  /-- stamp of its last transmission (R229) -/
  sent    : Nat
deriving DecidableEq, Repr

/-- One lane (R215 to R220, R246, R248). -/
structure Lane where
  bad      : Bool
  locked   : Bool
  /-- block errors of the open window: its first stamp and their count -/
  errAt    : Nat
  errN     : Nat
  /-- blocks sent since the last SKIP -/
  sinceSkip : Nat
  /-- data blocks scrambled since entry to ACTIVE: the position of the lane's PRBS-31 scrambler (R216) -/
  scram    : Nat
  /-- SKIP blocks sent -/
  skips    : Nat
  /-- IDLE-ENTER received (R248) -/
  idleRx   : Bool
deriving DecidableEq, Repr

def Lane.reset : Lane :=
  { bad := false, locked := false, errAt := 0, errN := 0, sinceSkip := 0, scram := 0, skips := 0, idleRx := false }

/-- An outbound packet (R236 to R238). -/
structure Pkt where
  ptype  : Nat
  len    : Nat
  tag    : Nat
  procid : Nat
  word1  : W64
  data   : List Byte
  /-- the completion that a CQE packet carries -/
  cqe    : Option Cqe
  /-- ASN of the command that a DWR belongs to -/
  asn    : Option Nat
deriving DecidableEq, Repr

/-- Low-power handshake (R247, R248). -/
inductive PmStep where
  | none
  /-- PM-ENTER sent, answer awaited -/
  | asked
  /-- PM-REFUSE received at a stamp -/
  | refused (at_ : Nat)
  /-- IDLE-ENTER sent at a stamp; the peer's is awaited on every active lane -/
  | idle (at_ : Nat)
deriving DecidableEq, Repr

/-- The link block. -/
structure Lnk where
  state    : LinkState
  width    : Nat
  /-- first lane of the active group (R246) -/
  first    : Nat
  domPos   : Nat
  lanes    : Tab Lane
  txSeq    : Nat
  rxExp    : Nat
  /-- replay buffer: every sequenced flit sent and not acknowledged, oldest first -/
  replay   : List TxFlit
  /-- flits of the replay buffer that wait to be sent again -/
  resend   : Nat
  /-- timed retransmissions from the oldest unacknowledged flit without progress (R229) -/
  repeats  : Nat
  /-- stamp of the outstanding NAK (R228) -/
  nakAt    : Option Nat
  /-- link-control entries that wait to be sent, oldest first -/
  lctl     : List W64
  /-- class of each released and unreturned credit, oldest release first (R233) -/
  released : List Nat
  /-- accepted flits of each class whose payload still stands in the receive space -/
  rxSpace  : Tab Nat
  txCrd    : Tab Nat
  grant    : W64
  /-- inbound byte stream of each class: bytes of packets not yet complete (R236) -/
  rxBytes  : Tab (List Byte)
  /-- bytes of skipped packets still to come, per class (R239) -/
  rxSkip   : Tab Nat
  /-- outbound packets per class, oldest first; the bytes of the first already sent -/
  out      : Tab (List Pkt)
  outSent  : Tab Nat
  /-- the flit on the wire last -/
  wire     : Option TxFlit
  errCrc   : Nat
  errReplay : Nat
  errUnk   : Nat
  errMal   : Nat
  errNocred : Nat
  errRecov : Nat
  errBlk   : Nat
  errLctl  : Nat
  pm       : PmStep
  holdAt   : Nat
  pollAt   : Nat
  everUp   : Bool
  ev46     : Bool
  /-- the next CONFIG offers SESSION NEW: 1 module reset, 2 unframable packet, 0 CONTINUE (R243, R244) -/
  newWhy   : Nat
deriving DecidableEq, Repr

/-- The link at module reset: DETECT, session NEW because of the reset (R244, R254). -/
def Lnk.reset : Lnk :=
  { state := .detect, width := 0, first := 0, domPos := 0, lanes := [], txSeq := 0, rxExp := 0, replay := [], resend := 0,
    repeats := 0, nakAt := none, lctl := [], released := [], rxSpace := [], txCrd := [],
    grant := 0x0010040000800400, rxBytes := [], rxSkip := [], out := [], outSent := [], wire := none, errCrc := 0,
    errReplay := 0, errUnk := 0, errMal := 0, errNocred := 0, errRecov := 0, errBlk := 0, errLctl := 0, pm := .none,
    holdAt := 0, pollAt := 0, everUp := false, ev46 := false, newWhy := 1 }

/-- A 64-byte command as it stands in a submission queue, with its process identifier (R241, R263). -/
structure SqEnt where
  words  : BitVec 512
  procid : Nat
deriving DecidableEq, Repr

/-- A CMD packet held in link receive (R257, R258). -/
structure HeldCmd where
  qp  : Nat
  ent : SqEnt
deriving DecidableEq, Repr

/-- One queue pair (R255 to R259, R289). -/
structure Qp where
  enable : Bool
  slice  : Nat
  depth  : Nat
  /-- commands placed and not accepted, oldest first -/
  sq     : List SqEnt
  /-- commands holding SQ entries -/
  outst  : Nat
  cqUsed : Nat
  err    : Nat
  phase  : Bool
  cqIdx  : Nat
  /-- a queue reset of this queue pair is in progress -/
  inReset : Bool
  /-- SYSTEM buffers that hold its queues (R256) -/
  bufs   : List Nat
deriving DecidableEq, Repr

def Qp.reset : Qp :=
  { enable := false, slice := 0, depth := 6, sq := [], outst := 0, cqUsed := 0, err := 0, phase := true, cqIdx := 0,
    inReset := false, bufs := [] }

/-- A data request and what its answers brought (R268). -/
structure Drd where
  rtag   : Nat
  off    : Nat
  len    : Nat
  got    : Nat
  fault  : Bool
  done   : Bool
deriving DecidableEq, Repr

/-- Kinds of overlap entries (R270). -/
inductive OvlKind where
  | guard | write
deriving DecidableEq, Repr

/-- An overlap entry in winnow banks 14 and 15 (R270, R479). -/
structure Ovl where
  tag   : Nat
  asn   : Nat
  kind  : OvlKind
  slice : Nat
  nsid  : Nat
  lo    : Nat
  hi    : Nat
deriving DecidableEq, Repr

/-- How far an outstanding command has come. -/
inductive CmdPhase where
  /-- accepted, waiting to start -/
  | waiting
  /-- its data is called (data-in commands) -/
  | dataIn
  /-- all its data stands in its buffers -/
  | dataReady
  /-- started; its own work is in progress -/
  | running
  /-- its final completion is posted -/
  | posted
deriving DecidableEq, Repr

/-- An outstanding command, named by its operation tag (R261). -/
structure Cmd where
  qp      : Nat
  ent     : SqEnt
  asn     : Nat
  /-- owner resolved at acceptance: a slice, or none for the operator (R303) -/
  owner   : Option Nat
  at_     : Nat
  /-- stamp of the last response (R277) -/
  resp    : Nat
  notices : Nat
  /-- its last notice is not yet transmitted (R278) -/
  noticeUp : Bool
  phase   : CmdPhase
  started : Bool
  drds    : List Drd
  bufs    : List Nat
  /-- grains landed, blocks processed or bytes returned, as the command counts them -/
  count   : Nat
  /-- status and result already decided, posted when the command may complete -/
  verdict : Option (Nat × Nat)
  /-- a new session discarded one of its data packets (R281) -/
  lostDwr : Bool
  /-- map entries that a fine READ fetched from the host (R265) -/
  hints   : List Byte
  /-- scanning work of SCAN, RUN and VERIFY-FIXITY: an abort stops it at its next stage boundary -/
  stopReq : Option Nat
deriving DecidableEq, Repr

/-- A power-state entry in progress (R284). -/
structure PEntry where
  tag    : Nat
  target : Nat
  at_    : Nat
  /-- start of the open quiet window -/
  quiet  : Option Nat
  /-- a quiet window has closed: the state is being prepared -/
  closed : Bool
deriving DecidableEq, Repr

/-- The host-queue block. -/
structure Hq where
  ready   : Bool
  pstate  : Nat
  entry   : Option PEntry
  act     : Bool
  inReset : Bool
  qps     : Tab Qp
  cmds    : Tab Cmd
  asn     : Nat
  cqes    : List Cqe
  held    : List HeldCmd
  ovls    : List Ovl
  /-- request tags of ended commands whose answers are still due (R251) -/
  orphans : List Nat
  /-- stamp of the last final completion (R284) -/
  lastDone : Nat
  /-- ABORT commands in progress: tag, and targets still to end -/
  aborts  : List (Nat × List Nat)
  errBadqp : Nat
  errFull : Nat
  errFlt  : Nat
  errLen  : Nat
deriving DecidableEq, Repr

def Hq.reset : Hq :=
  { ready := false, pstate := 0, entry := none, act := false, inReset := false, qps := [], cmds := [], asn := 0, cqes := [],
    held := [], ovls := [], orphans := [], lastDone := 0, aborts := [], errBadqp := 0, errFull := 0, errFlt := 0, errLen := 0 }

/-- Slice states (R290). -/
inductive SliceState where
  | free | creating | live | destroying
deriving DecidableEq, Repr

/-- A namespace of a slice (R296). -/
structure NsDesc where
  kind   : Nat
  grains : Nat
deriving DecidableEq, Repr

/-- The descriptor of a slice (R296). -/
structure Desc where
  tmask   : W64
  ceil    : Nat
  nscnt   : Nat
  qpfirst : Nat
  qpcnt   : Nat
  bufq    : Nat
  tcbq    : Nat
  pmfirst : Nat
  pmcnt   : Nat
  wnq     : Nat
  ksfirst : Nat
  kscnt   : Nat
  toksh   : Nat
  ns      : List NsDesc
deriving DecidableEq, Repr

def Desc.reset : Desc :=
  { tmask := 0, ceil := 0, nscnt := 0, qpfirst := 0, qpcnt := 0, bufq := 0, tcbq := 0, pmfirst := 0, pmcnt := 0, wnq := 0,
    ksfirst := 0, kscnt := 0, toksh := 0, ns := [] }

/-- One slice. -/
structure Slice where
  state : SliceState
  desc  : Desc
deriving DecidableEq, Repr

def Slice.reset : Slice := { state := .free, desc := Desc.reset }

/-- One binding-table entry (R302). -/
structure Bind where
  valid  : Bool
  oper   : Bool
  slice  : Nat
  procid : Nat
deriving DecidableEq, Repr

def Bind.reset : Bind := { valid := false, oper := false, slice := 0, procid := 0 }

/-- A program-table entry (R294, R295): where a checked image stands. -/
structure Prog where
  ldc   : Bool
  /-- space held in 64 KiB units -/
  span  : Nat
  /-- address of the image header -/
  base  : Nat
  ring  : Ring
  entry : Nat
  bodyLen : Nat
deriving DecidableEq, Repr

/-- A slice command in progress (R299, R300). -/
inductive SlcOp where
  | create | destroy
deriving DecidableEq, Repr

/-- A durable slice record (R299, R301): the descriptor, and whether a destroy record follows it. -/
structure SlcRec where
  desc    : Desc
  destroy : Bool
deriving DecidableEq, Repr

/-- The slice block. -/
structure Slc where
  slices  : Tab Slice
  busy    : Bool
  cmdSlice : Nat
  cmdOp   : Nat
  cmdRes  : Nat
  cmdPool : Nat
  cmdOff  : Nat
  binds   : Tab Bind
  /-- program tables: slice s entry p at 64s + p; the operator's at 16384 + p -/
  progs   : Tab Prog
  recs    : Tab SlcRec
  /-- program-memory units withdrawn in reduced-DRAM mode (R555) -/
  withdrawn : List Nat
deriving DecidableEq, Repr

def Slc.reset : Slc :=
  { slices := [], busy := false, cmdSlice := 0, cmdOp := 0, cmdRes := 0, cmdPool := 0, cmdOff := 0, binds := [], progs := [],
    recs := [], withdrawn := [] }

end Sys2Proof.Machine
end

