-- ==== Sys2Proof/Machine/StMedia.lean ====
section
/-! DEFINITION. State of media translation and durability (chapter 09) and of the flash channels and dies (chapter 10). -/

namespace Sys2Proof.Machine

/-- A page of user data as its codewords decode to it (R377): 16,384 B. -/
abbrev PageData := List Byte

/-- A page of the media, listed under (die × 16,384 + block) × 4,096 + page. One that is not verified stands in the write path only:
its data is what its program will hold. -/
structure Page where
  data     : PageData
  slc      : Bool
  verified : Bool
deriving DecidableEq, Repr

/-- States of a set (R331 SET record). -/
inductive SetState where
  | open_ | closed | erasing | free | retired
deriving DecidableEq, Repr

/-- One set of 32 blocks (R313, R326). -/
structure MSet where
  members : List (Nat × Nat)
  state   : SetState
  cls     : Nat
  fine    : Bool
  landing : Bool
  quad    : Nat
  /-- next free place: stripe, data position and byte in the page -/
  stripe  : Nat
  pos     : Nat
  off     : Nat
  /-- stamp of the last image queued for the open stripe (R317) -/
  lastAt  : Nat
  /-- queued for reclaim, and blocks of it still to erase -/
  victim  : Bool
  toErase : List (Nat × Nat)
deriving DecidableEq, Repr

/-- What becomes of one grain of a WRITE or TRIM (R314, R318, R320). -/
inductive GKind where
  | zero | packed | raw
deriving DecidableEq, Repr

/-- One grain (or fine block) of a WRITE or TRIM that has formed its content and not yet made its map update. -/
structure WGrain where
  tag    : Nat
  asn    : Nat
  boot   : Nat
  slice  : Nat
  ns     : Nat
  grain  : Nat
  fine   : Bool
  kind   : GKind
  warm   : Bool
  /-- generation of a fine block (R339) -/
  gen    : Nat
  /-- the grain's content: 1 MiB, or 4 KiB in a fine namespace -/
  content : List Byte
  ilen   : Nat
  lsn    : Nat
  set    : Nat
  stripe : Nat
  pos    : Nat
  off    : Nat
  issued : Bool
  landed : Bool
  mapped : Bool
  /-- JSN of its ZERO record, for a zero grain -/
  jsn    : Nat
  /-- MEDIA buffers of the write buffer (R272) -/
  bufs   : List Nat
deriving DecidableEq, Repr

/-- A landed image or slot as its landing header or tag names it (R315, R341). -/
structure Img where
  slice  : Nat
  ns     : Nat
  grain  : Nat
  fine   : Bool
  raw    : Bool
  warm   : Bool
  boot   : Nat
  asn    : Nat
  lsn    : Nat
  ilen   : Nat
  set    : Nat
  stripe : Nat
  pos    : Nat
  off    : Nat
  gen    : Nat
deriving DecidableEq, Repr

/-- A journal record (R330). -/
structure JRec where
  jsn   : Nat
  typ   : Nat
  ns    : Nat
  slice : Nat
  w1    : W64
  w2    : W64
  w3    : W64
deriving DecidableEq, Repr

/-- A journal page, being filled, closed, or durable (R332, R333). -/
structure JPage where
  recs  : List JRec
  lwm   : Nat
  stamp : Nat
  boot  : Nat
deriving DecidableEq, Repr

/-- A move of an image that waits for its durable record (fold, R323; reclaim and refresh, R327). -/
structure Move where
  /-- its record; 0 while the copy has not reached its commit (R324) -/
  jsn   : Nat
  key   : Nat
  fine  : Bool
  new_  : W64
  old   : W64
  /-- victim set of a reclaim or refresh; the landing set of a fold -/
  from_ : Nat
deriving DecidableEq, Repr

/-- A checkpoint of a map page or fine segment (R334): its entries and the JSN it covers. -/
structure Ckpt where
  entries : Tab W64
  jsn     : Nat
deriving DecidableEq, Repr

/-- A checkpoint whose CKPT or SEGMENT record is not durable yet (R334, R336). -/
structure CkptWait where
  jsn  : Nat
  seg  : Bool
  key  : Nat
  ckpt : Ckpt
deriving DecidableEq, Repr

/-- A grown defect (R331, R344). -/
structure Defect where
  die   : Nat
  block : Nat
  whole : Bool
  kind  : Nat
deriving DecidableEq, Repr

/-- A media-log entry (R352). -/
structure MLog where
  stamp : Nat
  event : Nat
  slice : Nat
  ns    : Nat
  arg   : Nat
deriving DecidableEq, Repr

/-- Progress of a retention sweep (R350): the sets still to visit. -/
structure Sweep where
  todo : List Nat
deriving DecidableEq, Repr

/-- Media translation. Coarse entries are listed under (16 × slice + ns) × 2^30 + grain, fine ones under
(16 × slice + ns) × 2^38 + LBA. -/
structure Map where
  coarse   : Tab W64
  fine     : Tab W64
  /-- entries whose stored complement differs (R310, R312) -/
  bad      : List Nat
  badFine  : List Nat
  /-- map pages (coarse key / 256) and fine segments (fine key / 512) not yet loaded (R338) -/
  cold     : List Nat
  coldSeg  : List Nat
  sets     : Tab MSet
  imgs     : List Img
  work     : List WGrain
  /-- live fine slots (R341) -/
  live     : List Nat
  jopen    : List JRec
  jopenAt  : Nat
  jqueue   : List JPage
  jdone    : List JPage
  jsn      : Nat
  jsnDone  : Nat
  lwm      : Nat
  lsn      : Nat
  boot     : Nat
  moves    : List Move
  ckpts    : Tab Ckpt
  ckptSegs : Tab Ckpt
  ckptWait : List CkptWait
  seals    : List Nat
  modSeal  : Bool
  nslim    : Tab Nat
  defects  : List Defect
  defGen   : Nat
  log      : List MLog
  landMax  : Nat
  reserve  : Nat
  retBits  : Nat
  time     : W64
  timeSet  : Bool
  timeDue  : Bool
  timeRec  : Option (Nat × Nat)
  sweep    : Option Sweep
  sweepSets : Nat
  sweepRefr : Nat
  mount    : Nat
  resident : Bool
  warn     : Nat
  /-- a system root stands on the media: the module has been commissioned (R364) -/
  rooted   : Bool
deriving DecidableEq, Repr

/-- Media translation at reset of a module that has never been commissioned (R352; the media are a starting state). -/
def Map.reset : Map :=
  { coarse := [], fine := [], bad := [], badFine := [], cold := [], coldSeg := [], sets := [], imgs := [], work := [],
    live := [], jopen := [], jopenAt := 0, jqueue := [], jdone := [], jsn := 0, jsnDone := 0, lwm := 0,
    lsn := 0, boot := 0, moves := [], ckpts := [], ckptSegs := [], ckptWait := [], seals := [], modSeal := false, nslim := [],
    defects := [], defGen := 0, log := [], landMax := 512, reserve := 64, retBits := 48, time := 0, timeSet := false,
    timeDue := false, timeRec := none, sweep := none, sweepSets := 0, sweepRefr := 0, mount := 0, resident := false,
    warn := 0, rooted := false }

/-- Kinds of NAND operation (R366). -/
inductive NandKind where
  | read | slcProgram | denseProgram | erase
deriving DecidableEq, Repr

/-- What a NAND operation is for. -/
inductive NandFor where
  /-- a read for a command, by operation tag -/
  | cmd (tag : Nat)
  /-- a landing program of the image with this LSN -/
  | land (lsn : Nat)
  /-- a journal page, by its first JSN -/
  | journal (jsn : Nat)
  /-- fold, reclaim, refresh or sweep work on a set -/
  | move (set : Nat)
  /-- an erase of a block of a set -/
  | erase (set : Nat)
  /-- mount, rebuild and other work -/
  | other
deriving DecidableEq, Repr

/-- One operation of a die queue (R366, R367) on one page or block. -/
structure DieOp where
  kind  : NandKind
  cls   : Nat
  block : Nat
  page  : Nat
  slice : Option Nat
  at_   : Nat
  why   : NandFor
deriving DecidableEq, Repr

/-- Operation in a die. -/
structure InDie where
  op     : DieOp
  /-- operations on other planes combined with it (R368) -/
  more   : List DieOp
  /-- start of its busy window: issue or last resume (R385) -/
  from_  : Nat
  tokens : Nat
  /-- issued a second time after a timeout (R385) -/
  again  : Bool
deriving DecidableEq, Repr

/-- States of a die (R388). -/
inductive DieState where
  | absent | inService | excluded | failed | unavailable
deriving DecidableEq, Repr

/-- One NAND die with the part profile that it matched (R360 to R363, R388). -/
structure Die where
  state   : DieState
  profile : Nat
  kind    : Nat
  suspN   : Nat
  queue   : List DieOp
  cur     : Option InDie
  susp    : Option InDie
  /-- reads let past the suspended erase so far -/
  past    : Nat
  /-- stamp of the Reset LUN in progress -/
  resetAt : Option Nat
  /-- profile: planes, blocks, word lines per block, disturb lag, suspend named, busy limits of read, program, erase -/
  planes  : Nat
  blocks  : Nat
  wls     : Nat
  lag     : Nat
  canSusp : Bool
  busyR   : Nat
  busyP   : Nat
  busyE   : Nat
  /-- fastest rate code the die declares -/
  rate    : Nat
  /-- identity of the commissioning record (R365) -/
  ident   : Nat
  /-- tracked read levels per block: the decode step that set them (R379) -/
  tracked : Tab Nat
  /-- the count of FCH_DIE_TOK disagrees with its complement (R597 class 7) -/
  tokBad  : Bool
deriving DecidableEq, Repr

def Die.reset : Die :=
  { state := .absent, profile := 0, kind := 0, suspN := 0, queue := [], cur := none, susp := none, past := 0,
    resetAt := none, planes := 1, blocks := 0, wls := 0, lag := 0, canSusp := false, busyR := 0, busyP := 0, busyE := 0,
    rate := 0, ident := 0, tracked := [], tokBad := false }

/-- A unit on the path of a command's data whose self-check finds a difference: a Groat engine's checker path (R412), or a cipher pair's
two pipelines (R424, R425). -/
inductive UnitFault where
  | groat (e : Fin 8)
  | cipher (q : Fin 4)
deriving DecidableEq, Repr

/-- What the firmware finds at a die position when it identifies the dies at a mount (R360 to R365). -/
structure DieFact where
  die     : Nat
  ident   : Nat
  /-- a part profile matches and every limit of R361 holds -/
  usable  : Bool
  profile : Nat
  kind    : Nat
  planes  : Nat
  blocks  : Nat
  wls     : Nat
  lag     : Nat
  canSusp : Bool
  busyR   : Nat
  busyP   : Nat
  busyE   : Nat
  rate    : Nat
  /-- blocks with a factory mark, and the maximum that the parameter page declares -/
  marks   : List Nat
  maxMarks : Nat
deriving DecidableEq, Repr

/-- Channel states (R388). -/
inductive ChanState where
  | off | training | active | failed
deriving DecidableEq, Repr

/-- One flash channel (R388). -/
structure Chan where
  rate    : Nat
  state   : ChanState
  rateMax : Nat
  pfail   : Nat
  efail   : Nat
  timeout : Nat
  train   : Nat
  retry   : Nat
  calib   : Nat
  soft    : Nat
  dfail   : Nat
  wpLow   : Bool
deriving DecidableEq, Repr

def Chan.reset : Chan :=
  { rate := 0, state := .off, rateMax := 8, pfail := 0, efail := 0, timeout := 0, train := 0, retry := 0, calib := 0,
    soft := 0, dfail := 0, wpLow := true }

/-- One VCCQ_OUT group (R359, R389). -/
structure Vccq where
  en   : Bool
  overcur : Bool
  low  : Bool
  off  : Bool
  ma   : Nat
  /-- start of the LOW window -/
  lowAt : Nat
deriving DecidableEq, Repr

def Vccq.reset : Vccq := { en := false, overcur := false, low := false, off := false, ma := 0, lowAt := 0 }

/-- A decoded page that a command waits for, or its failure (R379, R329). -/
structure GotPage where
  tag  : Nat
  page : Nat
  data : Option PageData
deriving DecidableEq, Repr

/-- The flash block. -/
structure Fch where
  chans   : Tab Chan
  dies    : Tab Die
  pages   : Tab Page
  got     : List GotPage
  pool    : Nat
  /-- tokens of a pool decrease still to claim (R74) -/
  debt    : Nat
  minRun  : Nat
  maxReads : Nat
  maxSusp : Nat
  age     : Nat
  vccq    : Tab Vccq
  /-- tokens held per slice (R371) -/
  sltok   : Tab Nat
deriving DecidableEq, Repr

def Fch.reset : Fch :=
  { chans := [], dies := [], pages := [], got := [], pool := 3072, debt := 0, minRun := 50000, maxReads := 8,
    maxSusp := 32, age := 2000000, vccq := [], sltok := [] }

end Sys2Proof.Machine
end

