-- ==== Sys2Proof/Machine/StEng.lean ====
section
/-! DEFINITION. State of the engines: Groat (chapter 11), cipher, digest and keys (chapter 12), winnow (chapter 13) and
the scan pipelines (chapter 14). -/

namespace Sys2Proof.Machine

/-- Progress of a job. -/
inductive JobState where
  | queued
  /-- a GCM decryption that waits for its quarantine reservation (R434 step 2) -/
  | reserving
  /-- a GCM decryption that has its quarantine buffers -/
  | reserved
  /-- a GCM decryption whose verified buffers wait to move into their class (R434 step 5a) -/
  | moving
  /-- run: its completion is decided and not yet delivered -/
  | ran
  /-- complete: the completion stands until the submitter accepts it -/
  | complete
deriving DecidableEq, Repr

/-- One engine job (R163 to R165). -/
structure Job where
  ctx    : Nat
  num    : Nat
  tcb    : Nat
  ring   : Ring
  slice  : Nat
  /-- the port's copy of the descriptor -/
  desc   : List Byte
  /-- the copy agrees with its complement (R415) -/
  descOk : Bool
  state  : JobState
  status : Nat
  result : Nat
  /-- input bytes that it read (R420, R440) -/
  read   : Nat
  /-- it failed under R413, not on the trailer -/
  faulty : Bool
  /-- copy of the key (R430) -/
  key    : BitVec 256
  /-- quarantine buffers of the job, in order, and how many have moved -/
  qbufs  : List Nat
  moved  : Nat
  /-- the submitter has accepted the completion (R165) -/
  accepted : Bool
  /-- the scheduler has accepted the job's event, or it raises none (R196) -/
  evDone : Bool
deriving DecidableEq, Repr

/-- The error counts `err0` to `err3` stand in the order of the engine's ERR register, highest field first (R420, R440).
One engine: a Groat engine, a cipher pair or the winnow port. -/
structure Eng where
  offline : Bool
  jobs    : List Job
  next    : Tab Nat
  err0    : Nat
  err1    : Nat
  err2    : Nat
  err3    : Nat
  inBytes : Nat
deriving DecidableEq, Repr

def Eng.reset : Eng :=
  { offline := false, jobs := [], next := [], err0 := 0, err1 := 0, err2 := 0, err3 := 0, inBytes := 0 }

/-- Digest algorithms (R167). -/
inductive Alg where
  | sha256 | sha512 | sha3 | hmac256 | hmac512
deriving DecidableEq, Repr

/-- One digest context (R166 to R169, R442 to R445). -/
structure Dctx where
  open_ : Bool
  ring  : Ring
  slice : Nat
  tcb   : Nat
  alg   : Alg
  key   : BitVec 256
  /-- chaining state of the digest in progress -/
  st    : List W64
  /-- no UPDATE since OPEN or since the last FINISH -/
  fresh : Bool
  /-- recorded error status, 0 none -/
  err   : Nat
  /-- opened by the scan pipeline for a VERIFY-FIXITY command -/
  forTag : Option Nat
  cplOk : Bool
deriving DecidableEq, Repr

def Dctx.reset : Dctx :=
  { open_ := false, ring := .r0, slice := 0, tcb := 0, alg := .sha256, key := 0, st := [], fresh := true, err := 0,
    forTag := none, cplOk := true }

/-- Key usages (R451). -/
inductive Usage where
  | seal_ | hmac | general | xts1 | xts2 | wrap | derive
deriving DecidableEq, Repr

/-- One key slot (R449 to R452). -/
structure Key where
  value   : BitVec 256
  valid   : Bool
  usage   : Usage
  ring    : Nat
  slown   : Bool
  persist : Bool
  slice   : Nat
  gen     : Nat
  cplOk   : Bool
deriving DecidableEq, Repr

def Key.reset : Key :=
  { value := 0, valid := false, usage := .seal_, ring := 0, slown := false, persist := false, slice := 0, gen := 0,
    cplOk := true }

/-- A key-slot write that waits for the supply (R455, R588). -/
structure HeldKey where
  slot : Nat
  key  : Key
  tag  : Nat
deriving DecidableEq, Repr

/-- Digest error counts of a quadrant (R458). -/
structure DgsErr where
  bus   : Nat
  alarm : Nat
  field : Nat
deriving DecidableEq, Repr

def DgsErr.reset : DgsErr := { bus := 0, alarm := 0, field := 0 }

/-- The digest block with keys and measurement registers. -/
structure Dgs where
  ctxs  : Tab Dctx
  errs  : Tab DgsErr
  mregs : Tab (BitVec 512)
  /-- measurement registers that disagree with their complement (R597 class 12) -/
  mbad  : List Nat
  keys  : Tab Key
  /-- the key store (R455): durable copies that survive reset -/
  store : Tab Key
  held  : List HeldKey
deriving DecidableEq, Repr

def Dgs.reset : Dgs := { ctxs := [], errs := [], mregs := [], mbad := [], keys := [], store := [], held := [] }

/-- One winnow row (R461). -/
structure WRow where
  lower  : W64
  upper  : W64
  prio   : Nat
  result : W32
  table  : Nat
  /-- the row's stored bits are uncorrectable (R482) -/
  bad    : Bool
deriving DecidableEq, Repr

/-- The winnow array's general banks; the overlap entries stand in the host-queue block. Valid rows are listed under
their global row number 16 × segment + row. -/
structure Wnw where
  rows   : Tab WRow
  /-- segments of each slice's region, ascending (R463) -/
  segs   : Tab (List Nat)
  mode   : Bool
  band   : Nat
  uncorr : Nat
  full   : Nat
  field  : Nat
  other  : Nat
  searches : Nat
  updates : Nat
deriving DecidableEq, Repr

def Wnw.reset : Wnw :=
  { rows := [], segs := [], mode := false, band := 0, uncorr := 0, full := 0, field := 0, other := 0, searches := 0,
    updates := 0 }

/-- Progress of one spikelet (R491, R502). -/
inductive SpkState where
  /-- a filter thread runs on it -/
  | running (tcb : Nat)
  /-- its output is taken and waits for its turn to be sent -/
  | output (bytes : List Byte)
  /-- a stage failed with a status; its result field above the record bytes -/
  | failed (status low : Nat)
deriving DecidableEq, Repr

/-- One spikelet in work. -/
structure Spk where
  state : SpkState
  /-- its buffers: descriptor, input of its own (fine data), classification, output -/
  dbuf  : Nat
  inb   : List Nat
  cls   : List Nat
  outb  : List Nat
deriving DecidableEq, Repr

/-- A started SCAN, RUN or VERIFY-FIXITY (R486 to R505). -/
structure Scan where
  /-- program-table index of the image -/
  prog    : Nat
  classify : Bool
  sealRec : Bool
  rstride : Nat
  keyoff  : Nat
  table   : Nat
  outbufs : Nat
  sealSlot : Nat
  insnMax : Nat
  threads : List Nat
  next    : Nat
  spks    : Tab Spk
  recs    : Nat
  bytes   : Nat
  blocks  : Nat
  /-- resident coarse grains, each with its 256 block buffers (R487) -/
  grains  : Tab (List Nat)
  /-- digest context of VERIFY-FIXITY, and bytes that do not fill a block of its digest yet -/
  ctx     : Option Nat
  rest    : List Byte
deriving DecidableEq, Repr

end Sys2Proof.Machine
end

