-- ==== Sys2Proof/Syntax.lean ====
section
/-! DEFINITION. The commands of the HK96: one constructor for each row of spec/opcode_table.json.
An instruction of the Aedjor set names the core `c` that executes it, its guard field `gd` (R94) and its other fields
as the formats of R126 lay them out. A register access names its requester `w`. A fact that the block finds in the world outside
(a temperature, a supply voltage, the status of a die, a received flit) is an operand of the command that finds it. -/

namespace Sys2Proof

open Sys2Proof.Machine (Who DieFact UnitFault)

/-- The commands, in the table's order but for two groups at the end: those without operands, and four more (compiled Lean numbers at most
245 constructors that have fields). -/
inductive Instr where
  /-- ADD (R130). Writes ra + rb, modulo 2^64, to rd. -/
  | add (c : Fin 72) (gd : BitVec 4) (rd ra rb : BitVec 5)
  /-- SUB (R130). Writes ra − rb, modulo 2^64, to rd. -/
  | sub (c : Fin 72) (gd : BitVec 4) (rd ra rb : BitVec 5)
  /-- AND (R130). Writes the bitwise AND of ra and rb to rd. -/
  | and (c : Fin 72) (gd : BitVec 4) (rd ra rb : BitVec 5)
  /-- OR (R130). Writes the bitwise OR of ra and rb to rd. -/
  | or (c : Fin 72) (gd : BitVec 4) (rd ra rb : BitVec 5)
  /-- XOR (R130). Writes the bitwise XOR of ra and rb to rd. -/
  | xor (c : Fin 72) (gd : BitVec 4) (rd ra rb : BitVec 5)
  /-- ANDN (R130). Writes ra AND NOT rb to rd. -/
  | andn (c : Fin 72) (gd : BitVec 4) (rd ra rb : BitVec 5)
  /-- SHL (R130). Shifts ra left by rb[5:0] into rd. -/
  | shl (c : Fin 72) (gd : BitVec 4) (rd ra rb : BitVec 5)
  /-- SHR (R130). Shifts ra right by rb[5:0] with zero fill into rd. -/
  | shr (c : Fin 72) (gd : BitVec 4) (rd ra rb : BitVec 5)
  /-- SAR (R130). Shifts ra right by rb[5:0] with sign fill into rd. -/
  | sar (c : Fin 72) (gd : BitVec 4) (rd ra rb : BitVec 5)
  /-- ROR (R130). Rotates ra right by rb[5:0] into rd. -/
  | ror (c : Fin 72) (gd : BitVec 4) (rd ra rb : BitVec 5)
  /-- MIN (R130). Writes the signed minimum of ra and rb to rd. -/
  | min (c : Fin 72) (gd : BitVec 4) (rd ra rb : BitVec 5)
  /-- MAX (R130). Writes the signed maximum of ra and rb to rd. -/
  | max (c : Fin 72) (gd : BitVec 4) (rd ra rb : BitVec 5)
  /-- MINU (R130). Writes the unsigned minimum of ra and rb to rd. -/
  | minu (c : Fin 72) (gd : BitVec 4) (rd ra rb : BitVec 5)
  /-- MAXU (R130). Writes the unsigned maximum of ra and rb to rd. -/
  | maxu (c : Fin 72) (gd : BitVec 4) (rd ra rb : BitVec 5)
  /-- SEXT_B (R130). Sign-extends ra[7:0] into rd. -/
  | sextB (c : Fin 72) (gd : BitVec 4) (rd ra : BitVec 5)
  /-- SEXT_H (R130). Sign-extends ra[15:0] into rd. -/
  | sextH (c : Fin 72) (gd : BitVec 4) (rd ra : BitVec 5)
  /-- SEXT_W (R130). Sign-extends ra[31:0] into rd. -/
  | sextW (c : Fin 72) (gd : BitVec 4) (rd ra : BitVec 5)
  /-- ZEXT_B (R130). Zero-extends ra[7:0] into rd. -/
  | zextB (c : Fin 72) (gd : BitVec 4) (rd ra : BitVec 5)
  /-- ZEXT_H (R130). Zero-extends ra[15:0] into rd. -/
  | zextH (c : Fin 72) (gd : BitVec 4) (rd ra : BitVec 5)
  /-- ZEXT_W (R130). Zero-extends ra[31:0] into rd. -/
  | zextW (c : Fin 72) (gd : BitVec 4) (rd ra : BitVec 5)
  /-- ADDI (R131). Writes ra plus the sign-extended imm12 to rd. -/
  | addi (c : Fin 72) (gd : BitVec 4) (rd ra : BitVec 5) (imm : BitVec 12)
  /-- ANDI (R131). Writes ra AND the sign-extended imm12 to rd. -/
  | andi (c : Fin 72) (gd : BitVec 4) (rd ra : BitVec 5) (imm : BitVec 12)
  /-- ORI (R131). Writes ra OR the sign-extended imm12 to rd. -/
  | ori (c : Fin 72) (gd : BitVec 4) (rd ra : BitVec 5) (imm : BitVec 12)
  /-- XORI (R131). Writes ra XOR the sign-extended imm12 to rd. -/
  | xori (c : Fin 72) (gd : BitVec 4) (rd ra : BitVec 5) (imm : BitVec 12)
  /-- SHIFTI (R131). Shifts or rotates ra by an immediate amount of the given kind into rd. -/
  | shifti (c : Fin 72) (gd : BitVec 4) (rd ra : BitVec 5) (kind : BitVec 2) (amount : BitVec 6)
  /-- MOVI (R132). Loads a 16-bit immediate into quarter h of rd, either replacing rd or keeping its other bits, as K selects. -/
  | movi (c : Fin 72) (gd : BitVec 4) (h : BitVec 2) (rd : BitVec 5) (k : Bool) (imm : BitVec 16)
  /-- CMP (R133). Evaluates a condition on ra and rb and sets, ANDs or ORs the result into pd. -/
  | cmp (c : Fin 72) (gd : BitVec 4) (pd : BitVec 3) (ra rb : BitVec 5) (comb : BitVec 2) (cond : BitVec 4)
  /-- CMPI (R133). Evaluates a condition on ra and the sign-extended imm11 and sets pd. -/
  | cmpi (c : Fin 72) (gd : BitVec 4) (pd cond : BitVec 3) (ra : BitVec 5) (imm : BitVec 11)
  /-- PRED (R134). Sets pd to pa AND, OR, XOR or ANDN pb. -/
  | pred (c : Fin 72) (gd : BitVec 4) (pd pa pb : BitVec 3) (op : BitVec 2)
  /-- LD_B (R135). Loads 1 byte, zero-extended, into rd after the access checks. -/
  | ldB (c : Fin 72) (gd : BitVec 4) (rd ra : BitVec 5) (imm : BitVec 12)
  /-- LD_H (R135). Loads 2 bytes, zero-extended, into rd after the access checks. -/
  | ldH (c : Fin 72) (gd : BitVec 4) (rd ra : BitVec 5) (imm : BitVec 12)
  /-- LD_W (R135). Loads 4 bytes, zero-extended, into rd after the access checks. -/
  | ldW (c : Fin 72) (gd : BitVec 4) (rd ra : BitVec 5) (imm : BitVec 12)
  /-- LD_D (R135). Loads 8 bytes into rd after the access checks; with TS_LDC set, the value lands after the next retired instruction. -/
  | ldD (c : Fin 72) (gd : BitVec 4) (rd ra : BitVec 5) (imm : BitVec 12)
  /-- LD_BS (R135). Loads 1 byte, sign-extended, into rd. -/
  | ldBs (c : Fin 72) (gd : BitVec 4) (rd ra : BitVec 5) (imm : BitVec 12)
  /-- LD_HS (R135). Loads 2 bytes, sign-extended, into rd. -/
  | ldHs (c : Fin 72) (gd : BitVec 4) (rd ra : BitVec 5) (imm : BitVec 12)
  /-- LD_WS (R135). Loads 4 bytes, sign-extended, into rd. -/
  | ldWs (c : Fin 72) (gd : BitVec 4) (rd ra : BitVec 5) (imm : BitVec 12)
  /-- ST_B (R135). Stores the low byte of rd at the effective address. -/
  | stB (c : Fin 72) (gd : BitVec 4) (rd ra : BitVec 5) (imm : BitVec 12)
  /-- ST_H (R135). Stores the low 2 bytes of rd at the effective address. -/
  | stH (c : Fin 72) (gd : BitVec 4) (rd ra : BitVec 5) (imm : BitVec 12)
  /-- ST_W (R135). Stores the low 4 bytes of rd at the effective address. -/
  | stW (c : Fin 72) (gd : BitVec 4) (rd ra : BitVec 5) (imm : BitVec 12)
  /-- ST_D (R135). Stores the 8 bytes of rd at the effective address. -/
  | stD (c : Fin 72) (gd : BitVec 4) (rd ra : BitVec 5) (imm : BitVec 12)
  /-- BR (R137). Branches pc-relative by 4 × sext(off22); a target outside 40 bits raises BUS-ERROR. -/
  | br (c : Fin 72) (gd : BitVec 4) (off : BitVec 22)
  /-- BL (R137). Branches pc-relative and writes pc + 4 to g31. -/
  | bl (c : Fin 72) (gd : BitVec 4) (off : BitVec 22)
  /-- JR (R139). Jumps to ra after checking the target's alignment and range. -/
  | jr (c : Fin 72) (gd : BitVec 4) (ra : BitVec 5)
  /-- JLR (R139). Jumps to ra and writes pc + 4 to rd, after checking the target. -/
  | jlr (c : Fin 72) (gd : BitVec 4) (rd ra : BitVec 5)
  /-- RESUME (R111). Discards the handler's pending effects, restores the saved pending state, clears TS_EXC and continues at xpc. -/
  | resume (c : Fin 72) (gd : BitVec 4)
  /-- MUL (R121). Computes the unsigned 128-bit product into ph:pl, which lands after the third following retired instruction. -/
  | mul (c : Fin 72) (gd : BitVec 4) (ra rb : BitVec 5)
  /-- MULH (R140). Computes the signed 128-bit product into ph:pl under the multiplier latency. -/
  | mulh (c : Fin 72) (gd : BitVec 4) (ra rb : BitVec 5)
  /-- DIV_STEP (R141). Performs one restoring division step on ph:pl with divisor ra, without latency. -/
  | divStep (c : Fin 72) (gd : BitVec 4) (ra : BitVec 5)
  /-- PAR (R142). Writes the parity of ra to rd. -/
  | par (c : Fin 72) (gd : BitVec 4) (rd ra : BitVec 5)
  /-- BREV (R142). Reverses the 64 bits of ra into rd. -/
  | brev (c : Fin 72) (gd : BitVec 4) (rd ra : BitVec 5)
  /-- BREV_B (R142). Reverses the bits within each byte of ra into rd. -/
  | brevB (c : Fin 72) (gd : BitVec 4) (rd ra : BitVec 5)
  /-- BSWAP (R142). Reverses the byte order of ra into rd. -/
  | bswap (c : Fin 72) (gd : BitVec 4) (rd ra : BitVec 5)
  /-- CLZ (R142). Counts the leading zeros of ra into rd. -/
  | clz (c : Fin 72) (gd : BitVec 4) (rd ra : BitVec 5)
  /-- CTZ (R142). Counts the trailing zeros of ra into rd. -/
  | ctz (c : Fin 72) (gd : BitVec 4) (rd ra : BitVec 5)
  /-- POPC (R142). Counts the ones of ra into rd. -/
  | popc (c : Fin 72) (gd : BitVec 4) (rd ra : BitVec 5)
  /-- CRC_STEP (R143). Folds the low n bytes of rb into the CRC register ra under the selected polynomial, writing rd. -/
  | crcStep (c : Fin 72) (gd : BitVec 4) (rd ra rb : BitVec 5) (pp ss : BitVec 2)
  /-- MOV_BLK (R146). Copies g24 elements from g25 to g26 element by element, resumable at element boundaries. -/
  | movBlk (c : Fin 72) (gd : BitVec 4) (esz : BitVec 2)
  /-- FILL_BLK (R146). Writes the low esz bytes of g27 to g24 elements from g26. -/
  | fillBlk (c : Fin 72) (gd : BitVec 4) (esz : BitVec 2)
  /-- CMP_BLK (R146). Compares elements at g25 and g26 until the first difference or the end, setting pd. -/
  | cmpBlk (c : Fin 72) (gd : BitVec 4) (pd : BitVec 3) (esz : BitVec 2)
  /-- SCAN_BLK (R146). Searches elements from g25 for a value equal, or unequal under NE, to g27, setting pd. -/
  | scanBlk (c : Fin 72) (gd : BitVec 4) (pd : BitVec 3) (esz : BitVec 2) (ne : Bool)
  /-- CRC_BLK (R146). Folds g24 bytes from g25 into the CRC register g27. -/
  | crcBlk (c : Fin 72) (gd : BitVec 4) (poly : BitVec 2)
  /-- MFS (R150). Copies a special register into rd. -/
  | mfs (c : Fin 72) (gd : BitVec 4) (rd sr : BitVec 5)
  /-- MTS (R150). Copies ra into a writable special register (pl, ph or xpc). -/
  | mts (c : Fin 72) (gd : BitVec 4) (sr ra : BitVec 5)
  /-- WAITWORK (R152). Takes a pending bound event at once, or leaves the core and waits until a bound event makes the thread ready. -/
  | waitwork (c : Fin 72) (gd : BitVec 4) (rd : BitVec 5)
  /-- YIELD (R153). Puts the thread at the tail of its ready list and lets the core ask for work. -/
  | yield (c : Fin 72) (gd : BitVec 4)
  /-- POST (R154). Raises a software event after checking its number and slice assignment. -/
  | post (c : Fin 72) (gd : BitVec 4) (ra : BitVec 5)
  /-- SLEEP (R155). Leaves the core until the time base reaches ra, or completes at once if it already has. -/
  | sleep (c : Fin 72) (gd : BitVec 4) (ra : BitVec 5)
  /-- FENCE (R157). Completes only after every earlier memory effect of the thread and holds back every later one. -/
  | fence (c : Fin 72) (gd : BitVec 4)
  /-- CACHE_CLN_R (R158). Writes back the dirty lines of a range, line by line in ascending order. -/
  | cacheClnR (c : Fin 72) (gd : BitVec 4) (ra rb : BitVec 5)
  /-- CACHE_INV_R (R158). Invalidates the lines of a range, discarding dirty data, line by line. -/
  | cacheInvR (c : Fin 72) (gd : BitVec 4) (ra rb : BitVec 5)
  /-- JOB_SUBMIT (R163). Copies a descriptor, checks it, takes a job slot and returns a numbered job handle. -/
  | jobSubmit (c : Fin 72) (gd : BitVec 4) (rd ra rb : BitVec 5)
  /-- JOB_WAIT (R165). Waits off the core for a job's completion and accepts its completion word. -/
  | jobWait (c : Fin 72) (gd : BitVec 4) (rd ra : BitVec 5)
  /-- JOB_TEST (R165). Accepts a job's completion word if the job is complete, otherwise clears pd. -/
  | jobTest (c : Fin 72) (gd : BitVec 4) (rd ra : BitVec 5) (pd : BitVec 3)
  /-- DGS_OPEN (R167). Opens a digest context of the given mode in the core's quadrant, or returns a refusal. -/
  | dgsOpen (c : Fin 72) (gd : BitVec 4) (rd ra : BitVec 5)
  /-- DGS_UPDATE (R168). Feeds whole blocks from memory into a digest context after the access checks. -/
  | dgsUpdate (c : Fin 72) (gd : BitVec 4) (rd ra rb : BitVec 5)
  /-- DGS_FINISH (R168). Finishes a digest context and writes the digest, or returns the recorded error status. -/
  | dgsFinish (c : Fin 72) (gd : BitVec 4) (rd ra rb : BitVec 5)
  /-- DGS_RELEASE (R169). Closes a digest context and returns it to the pool. -/
  | dgsRelease (c : Fin 72) (gd : BitVec 4) (ra : BitVec 5)
  /-- MREG_EXTEND (R170). Replaces a measurement register with SHA-512 of its old value followed by 64 bytes from memory. -/
  | mregExtend (c : Fin 72) (gd : BitVec 4) (n ra : BitVec 5)
  /-- CMP_CT (R171). Compares two 16, 32 or 64 byte operands in constant time and sets pd. -/
  | cmpCt (c : Fin 72) (gd : BitVec 4) (pd : BitVec 3) (size : BitVec 2) (ra rb : BitVec 5)
  /-- LEDGER_AUDIT (R77). Snapshots and checks the ledgers in the ring's scope and returns the verdict and the flag mask. -/
  | ledgerAudit (c : Fin 72) (gd : BitVec 4) (rd : BitVec 5) (pd : BitVec 3)
  /-- ILLEGAL_INSTRUCTION (R115). An undefined opcode, or a defined one with a reserved field or encoding, raises ILLEGAL-INSTRUCTION. -/
  | illegalInstruction (c : Fin 72) (word : BitVec 32)
  /-- INSNMAX_EXCEEDED (R494). A filter thread whose instruction count passes INSNMAX is stopped precisely and its command ends as a program fault. -/
  | insnmaxExceeded (c : Fin 72)
  /-- GRN_ALLOC (R62). A read of GRN_ALLOC_c allocates a zeroed buffer in class c, or holds the reader while R59 and R60 forbid. -/
  | grnAlloc (w : Who) (cls : Fin 8)
  /-- GRN_TRYALLOC (R62). A read of GRN_TRYALLOC_c allocates a buffer or returns at once with REFUSED and a reason. -/
  | grnTryalloc (w : Who) (cls : Fin 8)
  /-- HELD_ALLOCATION_GRANT (R65). A held allocation is granted once a release lets R59 and R60 permit it. -/
  | heldAllocationGrant (n : Nat)
  /-- GRN_FREE (R64). A write of a handle releases the buffer if the writer may, or counts a fault and raises event 1000. -/
  | grnFree (w : Who) (v : BitVec 64)
  /-- GRN_GIVE (R64). A write hands a buffer to a target owner under the ownership and target checks. -/
  | grnGive (w : Who) (v : BitVec 64)
  /-- BUFFER_HANDOFF_ACCEPT (R73). The receiving stage accepts a buffer in TRANSIT, ending the handoff. -/
  | bufferHandoffAccept (h : BitVec 14)
  /-- GRN_RECOUNT (R79). Ring 0 rebuilds BUF, the class counts and every slice sub-ledger from the buffer table. -/
  | grnRecount (w : Who) (v : BitVec 64)
  /-- QUARANTINE_RESERVE (R434). A waiting GCM decryption reserves all its quarantine buffers in one step once R59 and R60 permit. -/
  | quarantineReserve (q : Fin 4) (ctx : Fin 16)
  /-- QUARANTINE_MOVE (R434). A verified quarantine buffer moves into its output class once that class's ceiling permits. -/
  | quarantineMove (q : Fin 4) (ctx : Fin 16)
  /-- SCH_TCB_ALLOC (R177). A read allocates a thread control block for a ring-0 or ring-1 thread, or refuses. -/
  | schTcbAlloc (w : Who)
  /-- SCH_TCB_ALLOC_SLICE (R177). A read allocates a thread control block charged to slice s, or refuses. -/
  | schTcbAllocSlice (w : Who) (sl : Fin 256)
  /-- START (R182). SCH_CTL START checks an IDLE block, initialises the thread and makes it READY. -/
  | start (w : Who) (k : Fin 4096)
  /-- STOP (R183). SCH_CTL STOP sets STOPPEND; the block takes STOPPED at the first moment R183 allows. -/
  | stop (w : Who) (k : Fin 4096)
  /-- RESTART (R181). SCH_CTL RESTART clears the exception record and then acts as START. -/
  | restart (w : Who) (k : Fin 4096)
  /-- DELETE (R185). SCH_CTL DELETE unbinds events and mailboxes, frees locks and returns the block once its jobs and contexts are done. -/
  | delete (w : Who) (k : Fin 4096)
  /-- TCB_PRIO_WRITE (R190). A PRIO write moves a READY thread to the tail of its new level with a new arrival, or takes effect at its next arrival. -/
  | tcbPrioWrite (w : Who) (k : Fin 4096) (v : BitVec 64)
  /-- TCB_FIELD_WRITE (R180). A write to a block's mask, entry, argument, handler or window is accepted only in the states R180 allows. -/
  | tcbFieldWrite (w : Who) (k : Fin 4096) (r : Fin 16) (v : BitVec 64)
  /-- CORE_ASK_WORK (R187). A core that asks for work receives the highest-level, earliest-arrived thread of its group that admits it, or waits. -/
  | coreAskWork (c : Fin 72)
  /-- HELD_RAISE_ACCEPT (R196). A raise held for a saturated count or missing ready-list entries is accepted once room exists. -/
  | heldRaiseAccept (n : Nat)
  /-- SCH_EVT_WRITE (R192). A write binds, unbinds, delegates or assigns an event, with the reserved-encoding checks. -/
  | schEvtWrite (w : Who) (e : Fin 1024) (v : BitVec 64)
  /-- SCH_TMR_WRITE (R198). A write arms timer k with a compare value, raising its event at once if the value has passed. -/
  | schTmrWrite (w : Who) (k : Fin 16) (v : BitVec 64)
  /-- TIMER_EXPIRE (R198). The time base reaches timer k's compare value and event 864 + k is raised. -/
  | timerExpire (k : Fin 16)
  /-- SLEEP_WAKE (R155). The time base reaches a sleeping thread's deadline and the thread becomes ready. -/
  | sleepWake (k : Fin 4096)
  /-- OBS_WINDOW_WRITE (R199). A write to SCH_OBS_START or SCH_OBS_END clears DONE and the busy counts and opens a new window. -/
  | obsWindowWrite (w : Who) (isEnd : Bool) (v : BitVec 64)
  /-- MBX_POST (R203). The sender posts a message, refused with BADPTR or OVERRUN or stored with a timeout window. -/
  | mbxPost (w : Who) (m : Fin 576) (v : BitVec 64)
  /-- MBX_TAKE (R204). The receiver reads and clears the message, or reads zero when empty. -/
  | mbxTake (w : Who) (m : Fin 576)
  /-- MBX_DBSET (R206). The sender sets doorbell bits, raising the summary for each unmasked bit that goes from 0 to 1. -/
  | mbxDbset (w : Who) (m : Fin 576) (v : BitVec 64)
  /-- MBX_DBREAD (R206). The receiver reads and clears every set doorbell bit. -/
  | mbxDbread (w : Who) (m : Fin 576)
  /-- MBX_DBMASK_WRITE (R206). The receiver changes the doorbell mask; unmasking a set bit raises the summary. -/
  | mbxDbmaskWrite (w : Who) (m : Fin 576) (v : BitVec 64)
  /-- MBX_BIND_WRITE (R207). A write binds or unbinds the receiver thread of a mailbox's summary delivery, or sets internal parties. -/
  | mbxBindWrite (w : Who) (m : Fin 576) (v : BitVec 64)
  /-- MBX_TIMEOUT (R205). No take is stamped inside the message's window; TIMEOUT sets and event 883 is raised. -/
  | mbxTimeout (m : Fin 576)
  /-- LOCK_READ (R42). A read of a free lock acquires it; a read of an owned lock returns the owner with bit 63 set. -/
  | lockRead (w : Who) (n : Fin 256)
  /-- LOCK_WRITE (R212). The owner's identity frees the lock; any other write is ignored, counted and raises event 885. -/
  | lockWrite (w : Who) (n : Fin 256) (v : BitVec 64)
  /-- MBX_LOCKCFG_WRITE (R211). A write assigns or unassigns lock n to a slice, with the ownership check. -/
  | mbxLockcfgWrite (w : Who) (n : Fin 256) (v : BitVec 64)
  /-- LOCK_FORCE (R211). FORCE frees lock n whatever its owner, counted as a free. -/
  | lockForce (w : Who) (n : Fin 256) (v : BitVec 64)
  /-- PWR_VCORE_REQ_WRITE (R26). Ring 0 requests a VCORE level; the effective level becomes the slower of request and throttle. -/
  | pwrVcoreReqWrite (w : Who) (v : BitVec 64)
  /-- THERMAL_BAND_CHANGE (R595). The hottest die sensor crosses a throttle band and the permitted VCORE level changes. -/
  | thermalBandChange (t : BitVec 32)
  /-- WINNOW_BAND_CHANGE (R478). The hottest quadrant sensor crosses a winnow throttle band and the slot rate factor changes. -/
  | winnowBandChange (t : BitVec 32)
  /-- OVERTEMP_HOLD (R596). At 112 °C the hold rules apply until the sensor falls below 109 °C. -/
  | overtempHold (t : BitVec 32)
  /-- OVERTEMP_RESET (R596). At 120 °C the module resets and stays in reset until every sensor reads below 100 °C. -/
  | overtempReset (t : BitVec 32)
  /-- VIN_WARNING (R587). VIN falls below the warning threshold and event 16 is raised. -/
  | vinWarning (mv : Nat)
  /-- VIN_INHIBIT (R589). VIN falls below the inhibit threshold; risky operations are held and a hold window opens. -/
  | vinInhibit (mv : Nat)
  /-- VIN_RECOVER (R589). VIN leaves the inhibit threshold inside the window; held operations issue in order. -/
  | vinRecover (mv : Nat)
  /-- VIN_RESET (R591). VIN falls below the reset threshold; the module resets at once. -/
  | vinReset (mv : Nat)
  /-- RAIL_FAULT (R586). A rail outside ±5 % on two samples sets its fault bit and raises event 25. -/
  | railFault (n : Fin 8)
  /-- RAIL_RESET (R586). A rail outside ±10 % for 100 µs resets the module and records the rail. -/
  | railReset (n : Fin 8)
  /-- MODULE_RESET (R574). VIN valid or nRESET release starts the boot sequence from regulators to mount. -/
  | moduleReset (mv : Nat) (bad : List (Fin 8 × Fin 256))
  /-- ALARM_RESUME (R599). PWR_ALARM_CTL RESUME lifts STOP and the held media writes issue in order. -/
  | alarmResume (w : Who)
  /-- PWR_ALARM_EVT_CLEAR (R600). Clearing alarm bits releases ALERT_N once no unmasked bit stays set. -/
  | pwrAlarmEvtClear (w : Who) (v : BitVec 64)
  /-- COMMAND_ACCEPT (R261). Command fetch takes an SQ entry, numbers it, takes a tag, stamps it and runs the checks of R262. -/
  | commandAccept (q : Fin 512)
  /-- DATA_IN_COMPLETE (R268). Every DRD answer of a data-in command has arrived and the command decides its outcome. -/
  | dataInComplete (tag : Fin 65536)
  /-- NOTICE_POST (R277). The notice generator posts an IN-PROGRESS notice for a command whose 4 ms span nears its end. -/
  | noticePost (tag : Fin 65536)
  /-- IDENTIFY (R266). Returns 4,096 B of identity, mode, power state, images and namespaces. -/
  | identify (tag : Fin 65536)
  /-- READ (R271). Reads blocks of a namespace under the overlap order and returns them by DWR. `fault` is the cipher pair, if any, that
  meets a difference as it decrypts them (R425). -/
  | read (tag : Fin 65536) (fault : Option (Fin 4))
  /-- WRITE (R318). Lands the data of each grain as an image and maps it, completing once the grains have landed. `fault` is the
  grain of the command, from 0, and the unit, if any, whose check fails on its image (R417, R425). -/
  | write (tag : Fin 65536) (fault : Option (Nat × UnitFault))
  /-- FLUSH (R275). Completes once earlier writes and trims of the namespace and their journal records are durable. -/
  | flush (tag : Fin 65536)
  /-- TRIM (R320). Writes ZERO records for whole grains and zero blocks for partial ones, whose images a unit's check may fail. -/
  | trim (tag : Fin 65536) (fault : Option (Nat × UnitFault))
  /-- VERIFY_FIXITY (R504). Digests a range in the module and compares it with the expected digest. `fault` is the
  cipher pair, if any, that meets a difference in the grain it decrypts. -/
  | verifyFixity (tag : Fin 65536) (fault : Option (Fin 4))
  /-- SCAN (R496). Runs a slice program over a range through the scan pipeline and returns records. -/
  | scan (tag : Fin 65536)
  /-- LOAD_PROGRAM (R294). Places, checks and enters a sealed image in the owner's program table. -/
  | loadProgram (tag : Fin 65536)
  /-- UNLOAD_PROGRAM (R294). Frees a program table entry once earlier commands naming it have completed. -/
  | unloadProgram (tag : Fin 65536)
  /-- RUN (R505). Executes a program once as a one-spikelet scan and returns its record. -/
  | run (tag : Fin 65536)
  /-- SET_POWER (R284). Moves the module to a shallower state at once, or begins entry to a deeper state. -/
  | setPower (tag : Fin 65536)
  /-- GET_LOG (R264). Returns bytes of a log from a given offset. -/
  | getLog (tag : Fin 65536)
  /-- KEY_LOAD (R454). Unwraps a key into an admitted slot and makes the key store durable. -/
  | keyLoad (tag : Fin 65536)
  /-- FIRMWARE_STAGE (R580). Erases and programs part of a new image into the inactive bank. `bad` is the first unit of the command, from 0,
  if any, that fails verify three times. -/
  | firmwareStage (tag : Fin 65536) (bad : Option Nat)
  /-- FIRMWARE_ACTIVATE (R282). Checks the staged image, drains started work and restarts the culms on the new image. -/
  | firmwareActivate (tag : Fin 65536)
  /-- ABORT (R279). Ends unstarted, and stops started scan-type, commands with a target CID. -/
  | abort (tag : Fin 65536)
  /-- RESET_QP (R280). HQ_CTL RESET-QP ends the commands of one queue pair as R280 states. -/
  | resetQp (w : Who) (q : Fin 512)
  /-- RESET_ALL (R280). HQ_CTL RESET-ALL ends the commands of every queue pair. -/
  | resetAll (w : Who)
  /-- HQ_READY (R288). HQ_CTL READY sets HQ_STAT_READY; commands are accepted and P credits granted. -/
  | hqReady (w : Who)
  /-- QP_CFG_WRITE (R289). Enables or disables a queue pair, allocating or freeing its queue buffers. -/
  | qpCfgWrite (w : Who) (q : Fin 512) (v : BitVec 64)
  /-- FLIT_RECEIVE (R227). A received flit is CRC-checked and accepted, discarded, NAKed or used for its ACK only. -/
  | flitReceive (f : BitVec 1024)
  /-- FLIT_TRANSMIT (R226). The transmitter sends the next flit, retransmission or HOLD flit with credits and ACK in its header. -/
  | flitTransmit (cls : Fin 4)
  /-- SKIP_SEND (R217). After each 4,096 (or 1,024) blocks a lane sends a SKIP block. -/
  | skipSend (lane : Fin 8)
  /-- TS1_DETECT (R245). TS1 from the peer in DETECT moves the link to POLL. -/
  | ts1Detect (lane : Fin 8)
  /-- POLL_TIMEOUT (R245). 40 ms after POLL entry the link moves to CONFIG with its locked lanes or back to DETECT. -/
  | pollTimeout (lanes : BitVec 8)
  /-- CONFIG_COMPLETE (R244). CONFIG completes with width, grants and session, and the link enters ACTIVE. -/
  | configComplete (peerGood : BitVec 8) (domPos : Fin 8) (grants : BitVec 64) (peerNew : Bool) (peerExp : BitVec 12)
  /-- LANE_BLOCK_LOCK_FAIL (R246). A lane fails block lock within 1 ms and is marked bad. -/
  | laneBlockLockFail (lane : Fin 8)
  /-- LANE_ERROR_WINDOW (R246). 64 block errors within a 100 ms window mark a lane bad and start RECOVERY. -/
  | laneErrorWindow (lane : Fin 8) (n : Nat)
  /-- LINK_BLOCK_LOCK_LOSS (R245). An active lane loses block lock and the link enters RECOVERY. -/
  | linkBlockLockLoss (lane : Fin 8)
  /-- RETRAIN (R245). LNK_CTL RETRAIN moves the link to RECOVERY. -/
  | retrain (w : Who)
  /-- WIDEN (R254). LNK_CTL WIDEN clears every bad mark and retrains. -/
  | widen (w : Who)
  /-- IDLE_ENTER_RECEIVE (R248). IDLE-ENTER on every active lane completes entry to LOWPOWER. -/
  | idleEnterReceive (lanes : BitVec 8)
  /-- ELECTRICAL_IDLE_EXIT (R248). Either end leaves electrical idle with TS1 and the link passes through RECOVERY. -/
  | electricalIdleExit (byPeer : Bool)
  /-- CREATE (R299). SLC_CMD CREATE checks a descriptor, takes resources and prepares a slice. -/
  | create (w : Who) (sl : Fin 256) (desc : BitVec 40)
  /-- DESTROY (R300). SLC_CMD DESTROY checks preconditions and begins destruction with a durable destroy record. -/
  | destroy (w : Who) (sl : Fin 256)
  /-- SLC_BIND_WRITE (R302). A write sets or clears a process-identifier binding under its consistency checks. -/
  | slcBindWrite (w : Who) (k : Fin 4096) (v : BitVec 64)
  /-- LANDING_COMPLETE (R318). Every stripe holding a grain's image closes and the grain has landed. -/
  | landingComplete (tag : Fin 65536) (grain : Nat)
  /-- LANDING_STRIPE_TIMEOUT (R317). 200 µs with no image queued closes a partly used landing stripe with zero fill. -/
  | landingStripeTimeout (set : Nat)
  /-- MAP_UPDATE (R318). Once earlier updates permit, a grain's entry becomes BUFFERED and a LAND record is appended. -/
  | mapUpdate (tag : Fin 65536) (grain : Nat)
  /-- FOLD_COMMIT (R323). A folded image reaches its commit; its FOLD record is made durable and the map updated if OLD matches. -/
  | foldCommit (lsn : Nat)
  /-- RECLAIM (R327). Reclaim copies a victim set's live data, records, remaps and erases it. -/
  | reclaim (set : Nat)
  /-- CHECKPOINT (R334). A map page or segment is written to system blocks and a CKPT or SEGMENT record appended. -/
  | checkpoint (seg : Bool) (key : Nat)
  /-- MAP_PAGE_LOAD (R338). A map page or segment finishes loading and rebuilding, and waiting commands proceed. -/
  | mapPageLoad (seg : Bool) (key : Nat)
  /-- MOUNT (R337). The base firmware reads roots, tables and journal, runs the landing scan and settles slices. -/
  | mount (facts : List DieFact) (rates : List (Nat × Nat))
  /-- UNSEAL_NS (R348). MAP_CTL UNSEAL-NS lifts a namespace seal with a durable SEAL record. -/
  | unsealNs (w : Who) (sl : Fin 256) (ns : Fin 16)
  /-- UNSEAL_MODULE (R348). MAP_CTL UNSEAL-MODULE lifts the module seal with a durable SEAL record. -/
  | unsealModule (w : Who)
  /-- SWEEP (R350). MAP_CTL SWEEP starts a retention sweep. -/
  | sweep (w : Who)
  /-- MAP_TIME_WRITE (R349). Writing MAP_TIME appends a TIME record and decides the unpowered period. -/
  | mapTimeWrite (w : Who) (v : BitVec 64)
  /-- RETENTION_SWEEP (R350). The sweep samples each closed set and refreshes sets that decay beyond the thresholds. -/
  | retentionSweep (set : Nat) (bits : Nat) (deep : Bool)
  /-- NAND_OP_ISSUE (R367). When a die can take an operation, the scheduler chooses one, takes its tokens and issues it. -/
  | nandOpIssue (d : Fin 1536)
  /-- NAND_STATUS_READ (R357). A status read finds a die's ready edge, ends its operation and returns its tokens. -/
  | nandStatusRead (d : Fin 1536) (fail : Bool) (decode : Fin 6)
  /-- NAND_OP_TIMEOUT (R385). An operation's busy limit passes; the HK96 resets the LUN and retries or fails the die. -/
  | nandOpTimeout (d : Fin 1536)
  /-- RESET_LUN_TIMEOUT (R385). A die not ready 100 ms after Reset LUN is failed. -/
  | resetLunTimeout (d : Fin 1536)
  /-- ERASE_SUSPEND (R373). The scheduler suspends an erase that has run MINRUN to let reads past it. -/
  | eraseSuspend (d : Fin 1536) (busy : Bool)
  /-- ERASE_RESUME (R373). The scheduler resumes a suspended erase after its reads or when none waits. -/
  | eraseResume (d : Fin 1536)
  /-- VCCQ_OVERCURRENT (R359). A VCCQ_OUT load above 1.5 A is limited, OVER sets and event 20 + q is raised. -/
  | vccqOvercurrent (q : Fin 4) (ma : BitVec 16)
  /-- VCCQ_LOW (R359). A VCCQ_OUT output below 1.14 V stops new operations on the group until it recovers. -/
  | vccqLow (q : Fin 4) (ma : BitVec 16)
  /-- VCCQ_LOW_TIMEOUT (R359). LOW held for 100 ms turns the group off and makes its dies unavailable. -/
  | vccqLowTimeout (q : Fin 4)
  /-- FCH_PTOK_POOL_WRITE (R74). A pool write raises TOTAL at once or claims tokens from FREE until the decrease is taken. -/
  | fchPtokPoolWrite (w : Who) (v : BitVec 64)
  /-- COMPRESS (R406). A Groat COMPRESS job encodes its input into one checked frame. -/
  | compress (e : Fin 8) (ctx : Fin 16) (fault : Option Nat)
  /-- DECOMPRESS (R413). A Groat DECOMPRESS job decodes and checks a frame into its original bytes. -/
  | decompress (e : Fin 8) (ctx : Fin 16)
  /-- VALIDATE (R413). A Groat VALIDATE job decodes and checks a frame without writing. -/
  | validate (e : Fin 8) (ctx : Fin 16)
  /-- XTS_ENCRYPT (R431). A cipher XTS-ENCRYPT job encrypts data units under checked pipelines. -/
  | xtsEncrypt (q : Fin 4) (ctx : Fin 16) (fault : Option Nat)
  /-- XTS_DECRYPT (R431). A cipher XTS-DECRYPT job decrypts data units under checked pipelines. -/
  | xtsDecrypt (q : Fin 4) (ctx : Fin 16) (fault : Option Nat)
  /-- GCM_ENCRYPT (R433). A cipher GCM-ENCRYPT job writes ciphertext and its tag. -/
  | gcmEncrypt (q : Fin 4) (ctx : Fin 16) (fault : Option Nat)
  /-- GCM_DECRYPT (R434). A cipher GCM-DECRYPT job decrypts into quarantine and releases plaintext only after the tag verifies. -/
  | gcmDecrypt (q : Fin 4) (ctx : Fin 16) (fault : Option Nat)
  /-- SEARCH (R466). A winnow SEARCH job writes one result word per key. -/
  | search (ctx : Fin 16)
  /-- INSERT (R468). A winnow INSERT job places each row in region order, moving rows between segments. -/
  | insert (ctx : Fin 16)
  /-- WINNOW_DELETE (R469). A winnow DELETE job clears every matching row for each bound pair. -/
  | winnowDelete (ctx : Fin 16)
  /-- WINNOW_CLEAR (R469). A winnow CLEAR job removes every row of one table of the region. -/
  | winnowClear (ctx : Fin 16)
  /-- ENGINE_JOB_COMPLETE (R165). An engine job completes with a status, keeping its slot until accepted and its event until accepted. -/
  | engineJobComplete (port : BitVec 8) (ctx : Fin 16)
  /-- GRT_OFFLINE_WRITE (R421). Setting GRT_e_CFG_OFFLINE stops new jobs to the engine and raises its event. -/
  | grtOfflineWrite (w : Who) (e : Fin 8) (v : BitVec 64)
  /-- CPH_OFFLINE_WRITE (R441). Setting CPH_q_CFG_OFFLINE stops new jobs to the pair. -/
  | cphOfflineWrite (w : Who) (q : Fin 4) (v : BitVec 64)
  /-- KEY_ERASE (R456). DGS_KEYCTL ERASE zeroes a key slot and removes it from the key store. -/
  | keyErase (w : Who) (slot : Fin 2048)
  /-- KEY_RELOAD (R456). DGS_KEYCTL RELOAD restores a key slot from the key store. -/
  | keyReload (w : Who) (slot : Fin 2048)
  /-- SPIKELET_START (R491). The pipeline invalidates a spikelet's buffers and starts a filter thread on it. `fault` is the
  cipher pair, if any, that meets a difference as it decrypts the input (R502). -/
  | spikeletStart (tag : Fin 65536) (k : Fin 4096) (fault : Option (Fin 4))
  /-- SPIKELET_END (R491). A filter thread's WAITWORK ends its spikelet and the pipeline takes its output. `fault` is the cipher
  pair, if any, that meets a difference as it seals the record (R502). -/
  | spikeletEnd (tag : Fin 65536) (k : Fin 4096) (fault : Option (Fin 4))
  /-- RECORD_WRITE (R499). A spikelet's record is sent whole once every earlier record has been sent. -/
  | recordWrite (tag : Fin 65536)
  /-- PREFETCH (R517). After three ascending misses, the prefetcher fetches up to 8 further lines of the page. -/
  | prefetch (sheaf : Fin 8) (k : Fin 4096)
  /-- EVICTION_WRITEBACK (R519). A dirty line leaves through the eviction buffer and its write-back lands in memory. -/
  | evictionWriteback (cache : Fin 9)
  /-- SCRUB_GO (R530). ECC_SCRUB_CMD GO starts the scrubber over a range in SURVEY or REPAIR mode. -/
  | scrubGo (w : Who) (v : BitVec 64)
  /-- SCRUB_STOP (R532). ECC_SCRUB_CMD STOP stops the scrubber after its current 64 B. -/
  | scrubStop (w : Who) (v : BitVec 64)
  /-- ECC_CTL_CLEAR (R529). ECC_CTL clears every chaff entry and the overflow count. -/
  | eccCtlClear (w : Who) (v : BitVec 64)
  /-- DRC_INIT (R547). DRC_CTL INIT trains, fills and brings the ranks into service. -/
  | drcInit (w : Who) (v : BitVec 64)
  /-- DRAM_FILL_REGION (R547). A 1 MiB region of a rank is filled and accesses held on it proceed. -/
  | dramFillRegion (q : Fin 5)
  /-- RETIRE_RANK (R550). DRC_CTL RETIRE retires a rank, starting migration or losing its range. -/
  | retireRank (w : Who) (v : BitVec 64)
  /-- DRAM_REFRESH (R545). An all-bank refresh falls due and is issued between requests. -/
  | dramRefresh (q : Fin 5)
  /-- MR4_READ (R545). Every 16 refresh intervals MR4 is read and the refresh multiplier updated. -/
  | mr4Read (q : Fin 5) (v : BitVec 8)
  /-- FWA_PROGRAM (R563). FWA_CMD PROGRAM writes one 256 B unit and verifies it. -/
  | fwaProgram (w : Who) (v : BitVec 64)
  /-- FWA_CLEAR (R563). FWA_CMD CLEAR programs every byte of a unit to zero. -/
  | fwaClear (w : Who) (v : BitVec 64)
  /-- FWA_ERASE (R563). FWA_CMD ERASE erases one sector in pulses. -/
  | fwaErase (w : Who) (v : BitVec 64)
  /-- FWA_SUSPEND (R565). FWA_CMD SUSPEND stops a running erase within 20 µs and counts it. -/
  | fwaSuspend (w : Who) (v : BitVec 64)
  /-- FWA_RESUME (R565). FWA_CMD RESUME restarts the suspended erase's pulse. -/
  | fwaResume (w : Who) (v : BitVec 64)
  /-- FWA_OP_COMPLETE (R563). A program, clear or erase ends, sets its status and raises event 768. -/
  | fwaOpComplete (ok : Bool)
  /-- RDP_RAISE (R572). FWA_RDP_CTL RAISE burns a RAISE fuse. -/
  | rdpRaise (w : Who)
  /-- RDP_SEAL (R572). FWA_RDP_CTL SEAL burns the SEAL fuse. -/
  | rdpSeal (w : Who)
  /-- RDP_LOWER (R573). FWA_RDP_CTL LOWER burns a LOWREQ fuse and resets, after which the boot ROM wipes the module. -/
  | rdpLower (w : Who)
  /-- CONFIRM (R580). FWA_BOOT_CTL CONFIRM clears TRIAL and completes activation with SUCCESS. -/
  | confirm (w : Who)
  /-- FWA_LIMP (R577). FWA_BOOT_CTL LIMP puts the module into limp mode. -/
  | fwaLimp (w : Who)
  /-- FREEZE (R604). DBG_CTL FREEZE starts freeze entry. -/
  | freeze (w : Who)
  /-- THAW (R609). With no freeze source left, islands ungate, handshakes resume and expired windows are judged. -/
  | thaw (pin : Bool)
  /-- HALT (R612). DBG_CTL HALT stops one core at its next boundary. -/
  | halt (w : Who) (v : BitVec 64)
  /-- DEBUG_RESUME (R612). DBG_CTL RESUME lets a halted core continue. -/
  | debugResume (w : Who) (v : BitVec 64)
  /-- DEBUG_LOWER (R572). DBG_CTL LOWER burns a LOWREQ fuse to lower read-out protection. -/
  | debugLower (w : Who)
  /-- DBGACC_UPDATE (R615). An Update-DR of DBGACC makes one 64-bit access with ring 0 rights under read-out protection. -/
  | dbgaccUpdate (v : BitVec 106)
  /-- REGISTER_WRITE (R117). A write to a register without a row of its own sets its fields under the reserved-bit and encoding rules. -/
  | registerWrite (w : Who) (a : BitVec 40) (v : BitVec 64)
  /-- LANES_LOCKED (R245). In POLL the lanes reach bit lock and block lock on both ends and the link moves to CONFIG. -/
  | lanesLocked (lanes : BitVec 8)
  /-- VCCQ_OUT_RECOVER (R359). A VCCQ_OUT group's output rises back to 1.14 V or above, LOW clears and new operations may issue on its channels again. -/
  | vccqOutRecover (q : Fin 4) (ma : BitVec 16)
  /-- OVERTEMP_RELEASE (R596). The hottest sensor falls below 109 °C and the operations held since 112 °C issue. -/
  | overtempRelease (t : BitVec 32)
  /-- DGS_FINISH_DONE (R168). The digest engine finishes a context that DGS.FINISH left the core on, writes the digest or the status, and makes the thread ready. -/
  | dgsFinishDone (k : Fin 4096)
  /-- DRAM_TRAINING_DONE (R547). A rank's training ends and the rank takes FILLING, or takes FAILED with the spare taking its range. -/
  | dramTrainingDone (q : Fin 5) (cached ok : Bool)
  /-- OBS_WINDOW_CLOSE (R199). The time base reaches the observation window end; DONE sets and event 884 is raised. -/
  | obsWindowClose
  /-- RESONATOR_LOSS (R35). The MEMS reference stops or drifts; time base and PLLs switch to the backup oscillator and REF_LOST sets. -/
  | resonatorLoss
  /-- VCORE_SETTLED (R27). VCORE reaches the effective level and SETTLING clears. -/
  | vcoreSettled
  /-- HOLD_WINDOW_EXPIRE (R590). The hold window ends without recovery; every held operation fails as R590 states. -/
  | holdWindowExpire
  /-- HELD_CMD_PLACE (R257). A CMD held in link receive enters its SQ or the reserved CQ entries once room exists. -/
  | heldCmdPlace
  /-- POWER_QUIET_WINDOW_CLOSE (R284). A quiet window closes with no command inside it and the module prepares the target state. -/
  | powerQuietWindowClose
  /-- POWER_ENTRY_ABANDON (R284). No quiet window closes within 100 ms; SET-POWER completes with POWER-ENTRY-ABANDONED. -/
  | powerEntryAbandon
  /-- POWER_STATE_PREPARED (R284). State preparation ends; SET-POWER posts SUCCESS and the module enters the state. -/
  | powerStatePrepared
  /-- QUEUE_RESET_END (R280). A queue reset ends; event 66 is raised and HQ_STAT_RESET clears. -/
  | queueResetEnd
  /-- NAK_WINDOW_EXPIRE (R228). The 10 µs NAK window closes and the receiver may send a NAK again. -/
  | nakWindowExpire
  /-- REPLAY_TIMEOUT (R229). The oldest unacknowledged flit waits 1,000 ticks; the sender retransmits, entering RECOVERY on the fourth time. -/
  | replayTimeout
  /-- LINK_ACTIVE_TIMEOUT (R250). No ACTIVE by 300 ms after VIN valid raises event 46. -/
  | linkActiveTimeout
  /-- PM_ENTER (R247). In P2 to P4 with nothing outstanding, the HK96 sends PM-ENTER. -/
  | pmEnter
  /-- PM_REFUSE_RETRY (R247). 1 ms after a PM-REFUSE the HK96 sends PM-ENTER again. -/
  | pmRefuseRetry
  /-- LOWPOWER_ENTRY_TIMEOUT (R248). IDLE-ENTER missing on a lane 10 µs after sending; the link enters RECOVERY. -/
  | lowpowerEntryTimeout
  /-- HOLD_WINDOW_TIMEOUT (R249). No thaw within 1 s of HOLD; the link sends IDLE-ENTER and drops to DETECT keeping its session. -/
  | holdWindowTimeout
  /-- CREATE_COMPLETE (R299). Once the slice record is durable and keys and memory are prepared, the slice becomes LIVE. -/
  | createComplete
  /-- DESTROY_COMPLETE (R300). Keys, namespaces and resources are erased and returned; the slice becomes FREE. -/
  | destroyComplete
  /-- JOURNAL_PAGE_TIMEOUT (R333). 50 ms after its first record a journal page is closed and written. -/
  | journalPageTimeout
  /-- JOURNAL_PAGE_DURABLE (R333). Both copies of a journal page verify and the page becomes durable in JSN order. -/
  | journalPageDurable
  /-- MAP_TIME_TIMEOUT (R349). The time base reaches 60 s with no MAP_TIME write and the retention sweep runs. -/
  | mapTimeTimeout
  /-- SCRUB_READ (R531). After PACE ticks the scrubber reads, classifies and repairs the next 64 B. -/
  | scrubRead
  /-- MIGRATION_REGION (R551). One 1 MiB region is copied to the spare and redirected. -/
  | migrationRegion
  /-- ACTIVATION_WINDOW_EXPIRE (R580). No CONFIRM within the activation window; the culms restart on the fallback bank. -/
  | activationWindowExpire
  /-- FRZ_N_ASSERT (R604). FRZ_N held low starts freeze entry. -/
  | frzNAssert
  /-- FREEZE_COMPLETE (R605). Every stage and island has come to rest and DBG_STAT_FROZEN sets. -/
  | freezeComplete
  /-- EXTEST (R614). Drives the lands from the boundary-scan register while nRESET is low. -/
  | extest
  /-- IDCODE (R614). Selects the 32-bit IDCODE register. -/
  | idcode
  /-- CLAMP (R614). Holds the lands from the boundary-scan register with bypass selected. -/
  | clamp
  /-- HIGHZ (R614). Floats the lands with bypass selected. -/
  | highz
  /-- DBGACC (R614). Selects the 106-bit DBGACC register. -/
  | dbgacc
  /-- BYPASS (R614). Selects the 1-bit bypass register. -/
  | bypass
  /-- TEST_LOGIC_RESET (R614). The test access port enters Test-Logic-Reset by TRST_N or TMS and IDCODE is selected. -/
  | testLogicReset
  /-- NRESET (R611). nRESET held low resets the module, frozen or not, ahead of any thaw. -/
  | nreset (low : Bool)
  /-- FREEZE_MONITOR_READY (R608). During a freeze an R/B_n land is seen ready and the freeze monitor records it in DBG_FRZNAND_k. -/
  | freezeMonitorReady (n : Fin 96) (j : Fin 2)
  /-- SAMPLE_PRELOAD (R614). Samples or preloads the boundary-scan register. -/
  | samplePreload (v : BitVec 2696)
  /-- I2C_READ (R626). An I²C transaction reads one listed 64-bit register in one access. -/
  | i2cRead (a : BitVec 40)
deriving DecidableEq, Repr

end Sys2Proof
end

