-- ==== Sys2Proof/Decode.lean ====
section
/-! DEFINITION. Reading and writing Aedjor instruction words (chapter 04), and the reading of a table word.
No row of the opcode table gives bits, so a table word spells no command. The words of the instruction set are encoded here from
R126 to R172: an exception record holds the word (R92), and an ILLEGAL-INSTRUCTION command carries one. -/

namespace Sys2Proof

/-- The command that a word spells by the table's bits: the table gives no row any bits. -/
def decodeTableWord (_nbits _w : Nat) : Option Instr := none

/-- Format O (R126). -/
def wordO (gd : BitVec 4) (major : BitVec 6) (rd ra rb : BitVec 5) (fn : BitVec 7) : W32 := gd ++ major ++ rd ++ ra ++ rb ++ fn
/-- Format I. -/
def wordI (gd : BitVec 4) (major : BitVec 6) (rd ra : BitVec 5) (imm : BitVec 12) : W32 := gd ++ major ++ rd ++ ra ++ imm
/-- Format H. -/
def wordH (gd : BitVec 4) (rd ra : BitVec 5) (kind : BitVec 2) (amount : BitVec 6) : W32 :=
  gd ++ (0x06 : BitVec 6) ++ rd ++ ra ++ (0 : BitVec 4) ++ kind ++ amount
/-- Format W. -/
def wordW (gd : BitVec 4) (h : BitVec 2) (rd : BitVec 5) (k : Bool) (imm : BitVec 16) : W32 :=
  gd ++ (0b0010 : BitVec 4) ++ h ++ rd ++ BitVec.ofBool k ++ imm
/-- Format C. -/
def wordC (gd : BitVec 4) (pd : BitVec 3) (ra rb : BitVec 5) (comb : BitVec 2) (cond : BitVec 4) : W32 :=
  gd ++ (0x0C : BitVec 6) ++ pd ++ (0 : BitVec 2) ++ ra ++ rb ++ comb ++ (0 : BitVec 1) ++ cond
/-- Format CI. -/
def wordCI (gd : BitVec 4) (pd cond : BitVec 3) (ra : BitVec 5) (imm : BitVec 11) : W32 :=
  gd ++ (0x0D : BitVec 6) ++ pd ++ cond ++ ra ++ imm
/-- Format P. -/
def wordP (gd : BitVec 4) (pd pa pb : BitVec 3) (op : BitVec 2) : W32 :=
  gd ++ (0x0E : BitVec 6) ++ pd ++ pa ++ pb ++ op ++ (0 : BitVec 11)
/-- Format B. -/
def wordB (gd : BitVec 4) (major : BitVec 6) (off : BitVec 22) : W32 := gd ++ major ++ off
/-- Format K. -/
def wordK (gd : BitVec 4) (pd kind : BitVec 3) (esz poly : BitVec 2) (ne : Bool) : W32 :=
  gd ++ (0x26 : BitVec 6) ++ pd ++ kind ++ esz ++ poly ++ BitVec.ofBool ne ++ (0 : BitVec 11)
/-- Format T. -/
def wordT (gd : BitVec 4) (pd : BitVec 3) (size : BitVec 2) (ra rb : BitVec 5) : W32 :=
  gd ++ (0x2D : BitVec 6) ++ pd ++ size ++ ra ++ rb ++ (0 : BitVec 7)
/-- Format A. -/
def wordA (gd : BitVec 4) (rd : BitVec 5) (pd : BitVec 3) : W32 := gd ++ (0x2E : BitVec 6) ++ rd ++ pd ++ (0 : BitVec 14)
/-- CRC.STEP: format O with the function 0b100_ppss (R142). -/
def wordCrc (gd : BitVec 4) (rd ra rb : BitVec 5) (pp ss : BitVec 2) : W32 :=
  gd ++ (0x25 : BitVec 6) ++ rd ++ ra ++ rb ++ (0b100 : BitVec 3) ++ pp ++ ss
/-- JOB.TEST: format O with pd in rb[9:7] and rb[11:10] reserved (R160). -/
def wordJt (gd : BitVec 4) (rd ra : BitVec 5) (pd : BitVec 3) : W32 :=
  gd ++ (0x2B : BitVec 6) ++ rd ++ ra ++ (0 : BitVec 2) ++ pd ++ (0x02 : BitVec 7)

/-- The word of an instruction; none for a command that is no instruction. -/
def encode : Instr → Option W32
  | .add _ gd rd ra rb => some (wordO gd 0x1 rd ra rb 0x0)
  | .sub _ gd rd ra rb => some (wordO gd 0x1 rd ra rb 0x1)
  | .and _ gd rd ra rb => some (wordO gd 0x1 rd ra rb 0x2)
  | .or _ gd rd ra rb => some (wordO gd 0x1 rd ra rb 0x3)
  | .xor _ gd rd ra rb => some (wordO gd 0x1 rd ra rb 0x4)
  | .andn _ gd rd ra rb => some (wordO gd 0x1 rd ra rb 0x5)
  | .shl _ gd rd ra rb => some (wordO gd 0x1 rd ra rb 0x6)
  | .shr _ gd rd ra rb => some (wordO gd 0x1 rd ra rb 0x7)
  | .sar _ gd rd ra rb => some (wordO gd 0x1 rd ra rb 0x8)
  | .ror _ gd rd ra rb => some (wordO gd 0x1 rd ra rb 0x9)
  | .min _ gd rd ra rb => some (wordO gd 0x1 rd ra rb 0xa)
  | .max _ gd rd ra rb => some (wordO gd 0x1 rd ra rb 0xb)
  | .minu _ gd rd ra rb => some (wordO gd 0x1 rd ra rb 0xc)
  | .maxu _ gd rd ra rb => some (wordO gd 0x1 rd ra rb 0xd)
  | .sextB _ gd rd ra => some (wordO gd 0x1 rd ra 0 0x10)
  | .sextH _ gd rd ra => some (wordO gd 0x1 rd ra 0 0x11)
  | .sextW _ gd rd ra => some (wordO gd 0x1 rd ra 0 0x12)
  | .zextB _ gd rd ra => some (wordO gd 0x1 rd ra 0 0x13)
  | .zextH _ gd rd ra => some (wordO gd 0x1 rd ra 0 0x14)
  | .zextW _ gd rd ra => some (wordO gd 0x1 rd ra 0 0x15)
  | .addi _ gd rd ra imm => some (wordI gd 0x2 rd ra imm)
  | .andi _ gd rd ra imm => some (wordI gd 0x3 rd ra imm)
  | .ori _ gd rd ra imm => some (wordI gd 0x4 rd ra imm)
  | .xori _ gd rd ra imm => some (wordI gd 0x5 rd ra imm)
  | .shifti _ gd rd ra kind amount => some (wordH gd rd ra kind amount)
  | .movi _ gd h rd k imm => some (wordW gd h rd k imm)
  | .cmp _ gd pd ra rb comb cond => some (wordC gd pd ra rb comb cond)
  | .cmpi _ gd pd cond ra imm => some (wordCI gd pd cond ra imm)
  | .pred _ gd pd pa pb op => some (wordP gd pd pa pb op)
  | .ldB _ gd rd ra imm => some (wordI gd 0x10 rd ra imm)
  | .ldH _ gd rd ra imm => some (wordI gd 0x11 rd ra imm)
  | .ldW _ gd rd ra imm => some (wordI gd 0x12 rd ra imm)
  | .ldD _ gd rd ra imm => some (wordI gd 0x13 rd ra imm)
  | .ldBs _ gd rd ra imm => some (wordI gd 0x14 rd ra imm)
  | .ldHs _ gd rd ra imm => some (wordI gd 0x15 rd ra imm)
  | .ldWs _ gd rd ra imm => some (wordI gd 0x16 rd ra imm)
  | .stB _ gd rd ra imm => some (wordI gd 0x18 rd ra imm)
  | .stH _ gd rd ra imm => some (wordI gd 0x19 rd ra imm)
  | .stW _ gd rd ra imm => some (wordI gd 0x1a rd ra imm)
  | .stD _ gd rd ra imm => some (wordI gd 0x1b rd ra imm)
  | .br _ gd off => some (wordB gd 0x20 off)
  | .bl _ gd off => some (wordB gd 0x21 off)
  | .jr _ gd ra => some (wordO gd 0x22 0 ra 0 0x0)
  | .jlr _ gd rd ra => some (wordO gd 0x22 rd ra 0 0x1)
  | .resume _ gd => some (wordO gd 0x22 0 0 0 0x2)
  | .mul _ gd ra rb => some (wordO gd 0x24 0 ra rb 0x0)
  | .mulh _ gd ra rb => some (wordO gd 0x24 0 ra rb 0x1)
  | .divStep _ gd ra => some (wordO gd 0x24 0 ra 0 0x2)
  | .par _ gd rd ra => some (wordO gd 0x25 rd ra 0 0x0)
  | .brev _ gd rd ra => some (wordO gd 0x25 rd ra 0 0x1)
  | .brevB _ gd rd ra => some (wordO gd 0x25 rd ra 0 0x2)
  | .bswap _ gd rd ra => some (wordO gd 0x25 rd ra 0 0x3)
  | .clz _ gd rd ra => some (wordO gd 0x25 rd ra 0 0x4)
  | .ctz _ gd rd ra => some (wordO gd 0x25 rd ra 0 0x5)
  | .popc _ gd rd ra => some (wordO gd 0x25 rd ra 0 0x6)
  | .crcStep _ gd rd ra rb pp ss => some (wordCrc gd rd ra rb pp ss)
  | .movBlk _ gd esz => some (wordK gd 0 0 esz 0 false)
  | .fillBlk _ gd esz => some (wordK gd 0 1 esz 0 false)
  | .cmpBlk _ gd pd esz => some (wordK gd pd 2 esz 0 false)
  | .scanBlk _ gd pd esz ne => some (wordK gd pd 3 esz 0 ne)
  | .crcBlk _ gd poly => some (wordK gd 0 4 0 poly false)
  | .mfs _ gd rd sr => some (wordO gd 0x28 rd sr 0 0x0)
  | .mts _ gd sr ra => some (wordO gd 0x28 sr ra 0 0x1)
  | .waitwork _ gd rd => some (wordO gd 0x29 rd 0 0 0x0)
  | .yield _ gd => some (wordO gd 0x29 0 0 0 0x1)
  | .post _ gd ra => some (wordO gd 0x29 0 ra 0 0x2)
  | .sleep _ gd ra => some (wordO gd 0x29 0 ra 0 0x3)
  | .fence _ gd => some (wordO gd 0x2a 0 0 0 0x0)
  | .cacheClnR _ gd ra rb => some (wordO gd 0x2a 0 ra rb 0x1)
  | .cacheInvR _ gd ra rb => some (wordO gd 0x2a 0 ra rb 0x2)
  | .jobSubmit _ gd rd ra rb => some (wordO gd 0x2b rd ra rb 0x0)
  | .jobWait _ gd rd ra => some (wordO gd 0x2b rd ra 0 0x1)
  | .jobTest _ gd rd ra pd => some (wordJt gd rd ra pd)
  | .dgsOpen _ gd rd ra => some (wordO gd 0x2c rd ra 0 0x0)
  | .dgsUpdate _ gd rd ra rb => some (wordO gd 0x2c rd ra rb 0x1)
  | .dgsFinish _ gd rd ra rb => some (wordO gd 0x2c rd ra rb 0x2)
  | .dgsRelease _ gd ra => some (wordO gd 0x2c 0 ra 0 0x3)
  | .mregExtend _ gd n ra => some (wordO gd 0x2c n ra 0 0x4)
  | .cmpCt _ gd pd size ra rb => some (wordT gd pd size ra rb)
  | .ledgerAudit _ gd rd pd => some (wordA gd rd pd)
  | .illegalInstruction _ word => some (word)
  | .insnmaxExceeded _ => none
  | .grnAlloc _ _ => none
  | .grnTryalloc _ _ => none
  | .heldAllocationGrant _ => none
  | .grnFree _ _ => none
  | .grnGive _ _ => none
  | .bufferHandoffAccept _ => none
  | .grnRecount _ _ => none
  | .quarantineReserve _ _ => none
  | .quarantineMove _ _ => none
  | .schTcbAlloc _ => none
  | .schTcbAllocSlice _ _ => none
  | .start _ _ => none
  | .stop _ _ => none
  | .restart _ _ => none
  | .delete _ _ => none
  | .tcbPrioWrite _ _ _ => none
  | .tcbFieldWrite _ _ _ _ => none
  | .coreAskWork _ => none
  | .heldRaiseAccept _ => none
  | .schEvtWrite _ _ _ => none
  | .schTmrWrite _ _ _ => none
  | .timerExpire _ => none
  | .sleepWake _ => none
  | .obsWindowWrite _ _ _ => none
  | .obsWindowClose => none
  | .mbxPost _ _ _ => none
  | .mbxTake _ _ => none
  | .mbxDbset _ _ _ => none
  | .mbxDbread _ _ => none
  | .mbxDbmaskWrite _ _ _ => none
  | .mbxBindWrite _ _ _ => none
  | .mbxTimeout _ => none
  | .lockRead _ _ => none
  | .lockWrite _ _ _ => none
  | .mbxLockcfgWrite _ _ _ => none
  | .lockForce _ _ _ => none
  | .resonatorLoss => none
  | .pwrVcoreReqWrite _ _ => none
  | .vcoreSettled => none
  | .thermalBandChange _ => none
  | .winnowBandChange _ => none
  | .overtempHold _ => none
  | .overtempReset _ => none
  | .vinWarning _ => none
  | .vinInhibit _ => none
  | .vinRecover _ => none
  | .holdWindowExpire => none
  | .vinReset _ => none
  | .railFault _ => none
  | .railReset _ => none
  | .moduleReset _ _ => none
  | .nreset _ => none
  | .alarmResume _ => none
  | .pwrAlarmEvtClear _ _ => none
  | .heldCmdPlace => none
  | .commandAccept _ => none
  | .dataInComplete _ => none
  | .noticePost _ => none
  | .identify _ => none
  | .read _ _ => none
  | .write _ _ => none
  | .flush _ => none
  | .trim _ _ => none
  | .verifyFixity _ _ => none
  | .scan _ => none
  | .loadProgram _ => none
  | .unloadProgram _ => none
  | .run _ => none
  | .setPower _ => none
  | .getLog _ => none
  | .keyLoad _ => none
  | .firmwareStage _ _ => none
  | .firmwareActivate _ => none
  | .abort _ => none
  | .powerQuietWindowClose => none
  | .powerEntryAbandon => none
  | .powerStatePrepared => none
  | .resetQp _ _ => none
  | .resetAll _ => none
  | .queueResetEnd => none
  | .hqReady _ => none
  | .qpCfgWrite _ _ _ => none
  | .flitReceive _ => none
  | .flitTransmit _ => none
  | .nakWindowExpire => none
  | .replayTimeout => none
  | .skipSend _ => none
  | .ts1Detect _ => none
  | .pollTimeout _ => none
  | .configComplete _ _ _ _ _ => none
  | .laneBlockLockFail _ => none
  | .laneErrorWindow _ _ => none
  | .linkBlockLockLoss _ => none
  | .retrain _ => none
  | .widen _ => none
  | .linkActiveTimeout => none
  | .pmEnter => none
  | .pmRefuseRetry => none
  | .idleEnterReceive _ => none
  | .lowpowerEntryTimeout => none
  | .electricalIdleExit _ => none
  | .holdWindowTimeout => none
  | .create _ _ _ => none
  | .createComplete => none
  | .destroy _ _ => none
  | .destroyComplete => none
  | .slcBindWrite _ _ _ => none
  | .landingComplete _ _ => none
  | .landingStripeTimeout _ => none
  | .mapUpdate _ _ => none
  | .foldCommit _ => none
  | .reclaim _ => none
  | .journalPageTimeout => none
  | .journalPageDurable => none
  | .checkpoint _ _ => none
  | .mapPageLoad _ _ => none
  | .mount _ _ => none
  | .unsealNs _ _ _ => none
  | .unsealModule _ => none
  | .sweep _ => none
  | .mapTimeWrite _ _ => none
  | .mapTimeTimeout => none
  | .retentionSweep _ _ _ => none
  | .nandOpIssue _ => none
  | .nandStatusRead _ _ _ => none
  | .nandOpTimeout _ => none
  | .resetLunTimeout _ => none
  | .eraseSuspend _ _ => none
  | .eraseResume _ => none
  | .vccqOvercurrent _ _ => none
  | .vccqLow _ _ => none
  | .vccqLowTimeout _ => none
  | .fchPtokPoolWrite _ _ => none
  | .compress _ _ _ => none
  | .decompress _ _ => none
  | .validate _ _ => none
  | .xtsEncrypt _ _ _ => none
  | .xtsDecrypt _ _ _ => none
  | .gcmEncrypt _ _ _ => none
  | .gcmDecrypt _ _ _ => none
  | .search _ => none
  | .insert _ => none
  | .winnowDelete _ => none
  | .winnowClear _ => none
  | .engineJobComplete _ _ => none
  | .grtOfflineWrite _ _ _ => none
  | .cphOfflineWrite _ _ _ => none
  | .keyErase _ _ => none
  | .keyReload _ _ => none
  | .spikeletStart _ _ _ => none
  | .spikeletEnd _ _ _ => none
  | .recordWrite _ => none
  | .prefetch _ _ => none
  | .evictionWriteback _ => none
  | .scrubGo _ _ => none
  | .scrubStop _ _ => none
  | .scrubRead => none
  | .eccCtlClear _ _ => none
  | .drcInit _ _ => none
  | .dramFillRegion _ => none
  | .retireRank _ _ => none
  | .migrationRegion => none
  | .dramRefresh _ => none
  | .mr4Read _ _ => none
  | .fwaProgram _ _ => none
  | .fwaClear _ _ => none
  | .fwaErase _ _ => none
  | .fwaSuspend _ _ => none
  | .fwaResume _ _ => none
  | .fwaOpComplete _ => none
  | .rdpRaise _ => none
  | .rdpSeal _ => none
  | .rdpLower _ => none
  | .confirm _ => none
  | .activationWindowExpire => none
  | .fwaLimp _ => none
  | .frzNAssert => none
  | .freeze _ => none
  | .freezeComplete => none
  | .thaw _ => none
  | .halt _ _ => none
  | .debugResume _ _ => none
  | .debugLower _ => none
  | .dbgaccUpdate _ => none
  | .extest => none
  | .samplePreload _ => none
  | .idcode => none
  | .clamp => none
  | .highz => none
  | .dbgacc => none
  | .bypass => none
  | .i2cRead _ => none
  | .registerWrite _ _ _ => none
  | .lanesLocked _ => none
  | .vccqOutRecover _ _ => none
  | .overtempRelease _ => none
  | .dgsFinishDone _ => none
  | .dramTrainingDone _ _ _ => none
  | .testLogicReset => none
  | .freezeMonitorReady _ _ => none

/-- Major opcode, bits [27:22] (R126). -/
def wMajor (w : W32) : Nat := (w.extractLsb' 22 6).toNat
/-- Guard, bits [31:28] (R94). -/
def wGuard (w : W32) : BitVec 4 := w.extractLsb' 28 4
/-- Function field, bits [6:0]. -/
def wFn (w : W32) : Nat := (w.extractLsb' 0 7).toNat
/-- The rd field. -/
def wRd (w : W32) : BitVec 5 := w.extractLsb' 17 5
/-- The ra field. -/
def wRa (w : W32) : BitVec 5 := w.extractLsb' 12 5
/-- The rb field. -/
def wRb (w : W32) : BitVec 5 := w.extractLsb' 7 5
/-- The pd field of formats C, CI, P, K and T. -/
def wPd (w : W32) : BitVec 3 := w.extractLsb' 19 3

/-- An instruction of format O whose reserved register fields are zero. -/
def onlyIf (b : Bool) (i : Instr) : Option Instr := if b then some i else none

/-- The special registers that MTS may name: pl, ph and xpc (R89, R150). -/
def mtsOk (sr : BitVec 5) : Bool := sr == 0 || sr == 1 || sr == 5

/-- Major OP (0x01), by function (R129). -/
def decodeOp (c : Fin 72) (gd : BitVec 4) (w : W32) : Option Instr :=
  match wFn w with
  | 0 => some (.add c gd (wRd w) (wRa w) (wRb w))
  | 1 => some (.sub c gd (wRd w) (wRa w) (wRb w))
  | 2 => some (.and c gd (wRd w) (wRa w) (wRb w))
  | 3 => some (.or c gd (wRd w) (wRa w) (wRb w))
  | 4 => some (.xor c gd (wRd w) (wRa w) (wRb w))
  | 5 => some (.andn c gd (wRd w) (wRa w) (wRb w))
  | 6 => some (.shl c gd (wRd w) (wRa w) (wRb w))
  | 7 => some (.shr c gd (wRd w) (wRa w) (wRb w))
  | 8 => some (.sar c gd (wRd w) (wRa w) (wRb w))
  | 9 => some (.ror c gd (wRd w) (wRa w) (wRb w))
  | 10 => some (.min c gd (wRd w) (wRa w) (wRb w))
  | 11 => some (.max c gd (wRd w) (wRa w) (wRb w))
  | 12 => some (.minu c gd (wRd w) (wRa w) (wRb w))
  | 13 => some (.maxu c gd (wRd w) (wRa w) (wRb w))
  | 16 => onlyIf (wRb w == 0) (.sextB c gd (wRd w) (wRa w))
  | 17 => onlyIf (wRb w == 0) (.sextH c gd (wRd w) (wRa w))
  | 18 => onlyIf (wRb w == 0) (.sextW c gd (wRd w) (wRa w))
  | 19 => onlyIf (wRb w == 0) (.zextB c gd (wRd w) (wRa w))
  | 20 => onlyIf (wRb w == 0) (.zextH c gd (wRd w) (wRa w))
  | 21 => onlyIf (wRb w == 0) (.zextW c gd (wRd w) (wRa w))
  | _ => none

/-- Major JMP (0x22), by function (R129). -/
def decodeJmp (c : Fin 72) (gd : BitVec 4) (w : W32) : Option Instr :=
  match wFn w with
  | 0 => onlyIf (wRd w == 0 && wRb w == 0) (.jr c gd (wRa w))
  | 1 => onlyIf (wRb w == 0) (.jlr c gd (wRd w) (wRa w))
  | 2 => onlyIf (wRd w == 0 && wRa w == 0 && wRb w == 0) (.resume c gd)
  | _ => none

/-- Major MULDIV (0x24), by function (R129). -/
def decodeMuldiv (c : Fin 72) (gd : BitVec 4) (w : W32) : Option Instr :=
  match wFn w with
  | 0 => onlyIf (wRd w == 0) (.mul c gd (wRa w) (wRb w))
  | 1 => onlyIf (wRd w == 0) (.mulh c gd (wRa w) (wRb w))
  | 2 => onlyIf (wRd w == 0 && wRb w == 0) (.divStep c gd (wRa w))
  | _ => none

/-- Major BIT (0x25), by function (R129). -/
def decodeBit (c : Fin 72) (gd : BitVec 4) (w : W32) : Option Instr :=
  match wFn w with
  | 0 => onlyIf (wRb w == 0) (.par c gd (wRd w) (wRa w))
  | 1 => onlyIf (wRb w == 0) (.brev c gd (wRd w) (wRa w))
  | 2 => onlyIf (wRb w == 0) (.brevB c gd (wRd w) (wRa w))
  | 3 => onlyIf (wRb w == 0) (.bswap c gd (wRd w) (wRa w))
  | 4 => onlyIf (wRb w == 0) (.clz c gd (wRd w) (wRa w))
  | 5 => onlyIf (wRb w == 0) (.ctz c gd (wRd w) (wRa w))
  | 6 => onlyIf (wRb w == 0) (.popc c gd (wRd w) (wRa w))
  | f => onlyIf (64 ≤ f && f < 80) (.crcStep c gd (wRd w) (wRa w) (wRb w) (w.extractLsb' 2 2) (w.extractLsb' 0 2))

/-- Major SCHED (0x29), by function (R129). -/
def decodeSched (c : Fin 72) (gd : BitVec 4) (w : W32) : Option Instr :=
  match wFn w with
  | 0 => onlyIf (wRa w == 0 && wRb w == 0) (.waitwork c gd (wRd w))
  | 1 => onlyIf (wRd w == 0 && wRa w == 0 && wRb w == 0) (.yield c gd)
  | 2 => onlyIf (wRd w == 0 && wRb w == 0) (.post c gd (wRa w))
  | 3 => onlyIf (wRd w == 0 && wRb w == 0) (.sleep c gd (wRa w))
  | _ => none

/-- Major MEMSYS (0x2a), by function (R129). -/
def decodeMemsys (c : Fin 72) (gd : BitVec 4) (w : W32) : Option Instr :=
  match wFn w with
  | 0 => onlyIf (wRd w == 0 && wRa w == 0 && wRb w == 0) (.fence c gd)
  | 1 => onlyIf (wRd w == 0 && wRa w != 0 && wRb w != 0 && wRa w != wRb w) (.cacheClnR c gd (wRa w) (wRb w))
  | 2 => onlyIf (wRd w == 0 && wRa w != 0 && wRb w != 0 && wRa w != wRb w) (.cacheInvR c gd (wRa w) (wRb w))
  | _ => none

/-- Major ENGINE (0x2b), by function (R129). -/
def decodeEngine (c : Fin 72) (gd : BitVec 4) (w : W32) : Option Instr :=
  match wFn w with
  | 0 => some (.jobSubmit c gd (wRd w) (wRa w) (wRb w))
  | 1 => onlyIf (wRb w == 0) (.jobWait c gd (wRd w) (wRa w))
  | 2 => onlyIf (w.extractLsb' 10 2 == 0) (.jobTest c gd (wRd w) (wRa w) (w.extractLsb' 7 3))
  | _ => none

/-- Major DIGEST (0x2c), by function (R129). -/
def decodeDigest (c : Fin 72) (gd : BitVec 4) (w : W32) : Option Instr :=
  match wFn w with
  | 0 => onlyIf (wRb w == 0) (.dgsOpen c gd (wRd w) (wRa w))
  | 1 => some (.dgsUpdate c gd (wRd w) (wRa w) (wRb w))
  | 2 => some (.dgsFinish c gd (wRd w) (wRa w) (wRb w))
  | 3 => onlyIf (wRd w == 0 && wRb w == 0) (.dgsRelease c gd (wRa w))
  | 4 => onlyIf (wRb w == 0) (.mregExtend c gd (wRd w) (wRa w))
  | _ => none

/-- Major SPEC (0x28), by function (R129). -/
def decodeSpec (c : Fin 72) (gd : BitVec 4) (w : W32) : Option Instr :=
  match wFn w with
  | 0 => onlyIf (wRb w == 0 && (wRa w).toNat < 16) (.mfs c gd (wRd w) (wRa w))
  | 1 => onlyIf (wRb w == 0 && mtsOk (wRd w)) (.mts c gd (wRd w) (wRa w))
  | _ => none

/-- Major BLK (0x26), by kind (R146). -/
def decodeBlk (c : Fin 72) (gd : BitVec 4) (w : W32) : Option Instr :=
  let esz := w.extractLsb' 14 2
  let poly := w.extractLsb' 12 2
  let ne := w.getLsbD 11
  if w.extractLsb' 0 11 ≠ 0 then none
  else match (w.extractLsb' 16 3).toNat with
    | 0 => onlyIf (wPd w == 0 && poly == 0 && !ne) (.movBlk c gd esz)
    | 1 => onlyIf (wPd w == 0 && poly == 0 && !ne) (.fillBlk c gd esz)
    | 2 => onlyIf (poly == 0 && !ne) (.cmpBlk c gd (wPd w) esz)
    | 3 => onlyIf (poly == 0) (.scanBlk c gd (wPd w) esz ne)
    | 4 => onlyIf (wPd w == 0 && !ne && esz == 0) (.crcBlk c gd poly)
    | _ => none

/-- The instruction that a word encodes on core c; none for a word that R115 makes illegal. -/
def decodeInsn (c : Fin 72) (w : W32) : Option Instr :=
  let gd := wGuard w
  let imm := w.extractLsb' 0 12
  match wMajor w with
  | 0x01 => decodeOp c gd w
  | 0x02 => some (.addi c gd (wRd w) (wRa w) imm)
  | 0x03 => some (.andi c gd (wRd w) (wRa w) imm)
  | 0x04 => some (.ori c gd (wRd w) (wRa w) imm)
  | 0x05 => some (.xori c gd (wRd w) (wRa w) imm)
  | 0x06 => onlyIf (w.extractLsb' 8 4 == 0) (.shifti c gd (wRd w) (wRa w) (w.extractLsb' 6 2) (w.extractLsb' 0 6))
  | 0x08 => some (.movi c gd 0 (wRd w) (w.getLsbD 16) (w.extractLsb' 0 16))
  | 0x09 => some (.movi c gd 1 (wRd w) (w.getLsbD 16) (w.extractLsb' 0 16))
  | 0x0a => some (.movi c gd 2 (wRd w) (w.getLsbD 16) (w.extractLsb' 0 16))
  | 0x0b => some (.movi c gd 3 (wRd w) (w.getLsbD 16) (w.extractLsb' 0 16))
  | 0x0c => onlyIf (w.extractLsb' 17 2 == 0 && !w.getLsbD 4 && (w.extractLsb' 5 2) != 3 && !w.getLsbD 3) (.cmp c gd (wPd w) (wRa w) (wRb w) (w.extractLsb' 5 2) (w.extractLsb' 0 4))
  | 0x0d => some (.cmpi c gd (wPd w) (w.extractLsb' 16 3) (w.extractLsb' 11 5) (w.extractLsb' 0 11))
  | 0x0e => onlyIf (w.extractLsb' 0 11 == 0) (.pred c gd (wPd w) (w.extractLsb' 16 3) (w.extractLsb' 13 3) (w.extractLsb' 11 2))
  | 0x10 => some (.ldB c gd (wRd w) (wRa w) imm)
  | 0x11 => some (.ldH c gd (wRd w) (wRa w) imm)
  | 0x12 => some (.ldW c gd (wRd w) (wRa w) imm)
  | 0x13 => some (.ldD c gd (wRd w) (wRa w) imm)
  | 0x14 => some (.ldBs c gd (wRd w) (wRa w) imm)
  | 0x15 => some (.ldHs c gd (wRd w) (wRa w) imm)
  | 0x16 => some (.ldWs c gd (wRd w) (wRa w) imm)
  | 0x18 => some (.stB c gd (wRd w) (wRa w) imm)
  | 0x19 => some (.stH c gd (wRd w) (wRa w) imm)
  | 0x1a => some (.stW c gd (wRd w) (wRa w) imm)
  | 0x1b => some (.stD c gd (wRd w) (wRa w) imm)
  | 0x20 => some (.br c gd (w.extractLsb' 0 22))
  | 0x21 => some (.bl c gd (w.extractLsb' 0 22))
  | 0x22 => decodeJmp c gd w
  | 0x24 => decodeMuldiv c gd w
  | 0x25 => decodeBit c gd w
  | 0x26 => decodeBlk c gd w
  | 0x28 => decodeSpec c gd w
  | 0x29 => decodeSched c gd w
  | 0x2a => decodeMemsys c gd w
  | 0x2b => decodeEngine c gd w
  | 0x2c => decodeDigest c gd w
  | 0x2d => onlyIf (w.extractLsb' 0 7 == 0 && (w.extractLsb' 17 2) != 3) (.cmpCt c gd (wPd w) (w.extractLsb' 17 2) (wRa w) (wRb w))
  | 0x2e => onlyIf (w.extractLsb' 0 14 == 0) (.ledgerAudit c gd (wRd w) (w.extractLsb' 14 3))
  | _ => none

end Sys2Proof
end

