-- ==== Sys2Proof/Config.lean ====
section
/-! DEFINITION. What a unit of the HK96 or the world around it fixes, and what the spec leaves open: constants with no body, so that
nothing can rest on their values. -/

namespace Sys2Proof.Config

/-- Which of several equally allowed things is taken: a free buffer, thread control block, digest context or set,
and every other identity that R49 leaves open. The argument is the number of the draw. -/
opaque pick : Nat → Nat

/-- The 32-byte value N of the on-die entropy source (R453), by number of the draw. -/
opaque entropy : Nat → BitVec 256

/-- A byte that an array read returns when FWA_SENSE is shorter than R561 needs, by number of the draw and address. -/
opaque shortSense : Nat → Nat → Byte

/-- Byte and check bits of a sector whose erase was cut short (R567, R568), by number of the draw and address. -/
opaque partErased : Nat → Nat → BitVec 13

/-- The boot ROM's bytes (R97). -/
opaque romByte : Nat → Byte

/-- Fuses of key slots 0, 1 and 5 (R450). -/
opaque fuseKey : Nat → BitVec 256

/-- The serial number: byte i of the 12 characters read from fuses (R266, R636). -/
opaque serial : Nat → Byte

/-- The parameters that the base firmware's profile of a namespace gives COMPRESS (R417): ESZ, INITPRED, STRIDE, ROW.
The arguments are slice and namespace. -/
opaque profile : Nat → Nat → Nat × Nat × Nat × Nat

/-- First address of the 512 MiB manager image area that the base firmware keeps in the DRAM reserve (R294). -/
opaque managerArea : Nat

/-- The RESULT of a completion whose status states none (R260, R285), by number of the draw. -/
opaque openResult : Nat → BitVec 48

/-- The refresh multiplier that JESD209-5 gives for an MR4 refresh-rate value (R545). -/
opaque refreshMult : Nat → Nat

end Sys2Proof.Config
end

