-- ==== Sys2Proof/Machine/Bits.lean ====
section
/-! DEFINITION. Bytes, little-endian words, bit fields, CRCs and the byte-lane code. -/

namespace Sys2Proof.Machine

/-- The low n bytes of a value, lowest address first. -/
def leBytes : Nat → Nat → List Byte
  | 0, _ => []
  | n + 1, v => BitVec.ofNat 8 v :: leBytes n (v / 256)

/-- The value of bytes given lowest address first. -/
def leNat : List Byte → Nat
  | [] => 0
  | b :: t => b.toNat + 256 * leNat t

/-- The low n bytes of a value, highest first. -/
def beBytes (n v : Nat) : List Byte := (leBytes n v).reverse

/-- The value of bytes given highest first. -/
def beNat (l : List Byte) : Nat := leNat l.reverse

/-- n zero bytes. -/
def zeros (n : Nat) : List Byte := List.replicate n 0

/-- The little-endian value of the n bytes at offset o of a byte list. -/
def leAt (l : List Byte) (o n : Nat) : Nat := leNat ((l.drop o).take n)

/-- Bits [hi:lo] of a 64-bit word, as a count. -/
def fld (v : W64) (hi lo : Nat) : Nat := (v.toNat / 2 ^ lo) % 2 ^ (hi + 1 - lo)

/-- One bit of a 64-bit word. -/
def bit (v : W64) (i : Nat) : Bool := v.getLsbD i

/-- A count placed at bit lo of a 64-bit word. -/
def at_ (lo n : Nat) : W64 := BitVec.ofNat 64 n <<< lo

/-- A flag placed at bit i of a 64-bit word. -/
def flagAt (i : Nat) (b : Bool) : W64 := if b then BitVec.ofNat 64 1 <<< i else 0

/-- A mask of bits [hi:lo]. -/
def maskOf (hi lo : Nat) : W64 := BitVec.ofNat 64 ((2 ^ (hi + 1 - lo) - 1) * 2 ^ lo)

/-- Count n saturated at a limit. -/
def sat (lim n : Nat) : Nat := if n ≤ lim then n else lim
/-- A 16-bit count goes up. -/
def up16 (n : Nat) : Nat := sat 65535 (n + 1)

/-- n div m, rounded up. -/
def ceilDiv (n m : Nat) : Nat := (n + m - 1) / m

/-- Round n up to a multiple of m. -/
def roundUp (n m : Nat) : Nat := ceilDiv n m * m

/-- Iterate a function n times. -/
def iter {α : Type} (f : α → α) : Nat → α → α
  | 0, a => a
  | n + 1, a => iter f n (f a)

/-- One bit step of a reflected CRC-32 with reflected polynomial pr (R143). -/
def crcStepRefl (pr c : BitVec 64) : BitVec 64 :=
  (c >>> 1) ^^^ (if c.getLsbD 0 then pr else 0)

/-- One bit step of a direct CRC of width w with polynomial p (R143). -/
def crcStepDirect (w : Nat) (p c : BitVec 64) : BitVec 64 :=
  ((c <<< 1) &&& BitVec.ofNat 64 (2 ^ w - 1)) ^^^ (if c.getLsbD (w - 1) then p else 0)

/-- Fold one byte into a CRC register; `pp` selects the polynomial (R143). -/
def crcByte (pp : BitVec 2) (c : W64) (b : Byte) : W64 :=
  let d : W64 := b.setWidth 64
  if pp = 0 then iter (crcStepRefl 0x82F63B78) 8 ((c &&& 0xFFFFFFFF) ^^^ d)
  else if pp = 1 then iter (crcStepRefl 0xEDB88320) 8 ((c &&& 0xFFFFFFFF) ^^^ d)
  else if pp = 2 then iter (crcStepDirect 64 0x42F0E1EBA9EA3693) 8 (c ^^^ (d <<< 56))
  else iter (crcStepDirect 16 0x1021) 8 ((c &&& 0xFFFF) ^^^ (d <<< 8))

/-- Fold bytes into a CRC register. -/
def crcFold (pp : BitVec 2) (c : W64) (l : List Byte) : W64 := l.foldl (crcByte pp) c

/-- A CRC register with the bits above its width cleared (R143). -/
def crcTrim (pp : BitVec 2) (c : W64) : W64 :=
  if pp = 0 ∨ pp = 1 then c &&& 0xFFFFFFFF else if pp = 2 then c else c &&& 0xFFFF

/-- CRC-32C from 0xFFFF_FFFF with final inversion (R225). -/
def crc32c (l : List Byte) : Nat := ((crcFold 0 0xFFFFFFFF l) ^^^ 0xFFFFFFFF).toNat % 2 ^ 32

/-- The check value of a byte: [4] P, [3:0] c3 to c0 (R523). -/
def checkOf (d : Byte) : BitVec 5 :=
  let b := fun i => d.getLsbD i
  let c0 := b 0 ^^ b 1 ^^ b 3 ^^ b 4 ^^ b 6
  let c1 := b 0 ^^ b 2 ^^ b 3 ^^ b 5 ^^ b 6
  let c2 := b 1 ^^ b 2 ^^ b 3 ^^ b 7
  let c3 := b 4 ^^ b 5 ^^ b 6 ^^ b 7
  let p := b 0 ^^ b 1 ^^ b 2 ^^ b 3 ^^ b 4 ^^ b 5 ^^ b 6 ^^ b 7 ^^ c0 ^^ c1 ^^ c2 ^^ c3
  BitVec.ofBool p ++ BitVec.ofBool c3 ++ BitVec.ofBool c2 ++ BitVec.ofBool c1 ++ BitVec.ofBool c0

/-- Outcome of decoding a stored byte (R524). -/
inductive LaneOut where
  | clean (d : Byte)
  | corrected (d : Byte)
  | bad
deriving DecidableEq, Repr

/-- Parity of a value's bits. -/
def parity {w : Nat} (v : BitVec w) : Bool := (List.range w).foldl (fun a i => a ^^ v.getLsbD i) false

/-- Decode a stored byte with its stored check value (R524). -/
def decodeByte (d : Byte) (c : BitVec 5) : LaneOut :=
  let s := ((checkOf d) ^^^ c).toNat % 16
  let e := parity d ^^ parity c
  if s = 0 ∧ e = false then .clean d
  else if s = 0 then .corrected d
  else if e = false then .bad
  else match s with
    | 3 => .corrected (d ^^^ 0x01) | 5 => .corrected (d ^^^ 0x02) | 6 => .corrected (d ^^^ 0x04)
    | 7 => .corrected (d ^^^ 0x08) | 9 => .corrected (d ^^^ 0x10) | 10 => .corrected (d ^^^ 0x20)
    | 11 => .corrected (d ^^^ 0x40) | 12 => .corrected (d ^^^ 0x80)
    | 1 | 2 | 4 | 8 => .corrected d
    | _ => .bad

/-- The check value of a poisoned byte, whose data is 0x00 (R525). -/
def poisonChk : BitVec 5 := 0b00011

/-- Rotate a byte left (R539). -/
def rotl8 (x : Byte) (k : Nat) : Byte := x.rotateLeft k

/-- The address tag of the DRAM word at byte address A (R539). -/
def dramTag (a : Nat) : Byte :=
  let v := a / 8
  (List.range 5).foldl (fun t k => t ^^^ rotl8 (BitVec.ofNat 8 (v / 256 ^ k)) k) 0xA5

end Sys2Proof.Machine
end

