-- ==== Sys2Proof/Machine/State.lean ====
section
/-! DEFINITION. The state of the HK96 as a block: everything the spec gives the machine, and the queue of commands that wait. -/

namespace Sys2Proof.Machine

/-- Everything the spec gives the machine, block by block (R105). -/
structure Mach where
  /-- the time base in ticks (R32) -/
  tb    : Nat
  refLost : Bool
  sys   : Sys
  grn   : Grn
  sch   : Sch
  mbx   : Mbx
  lnk   : Lnk
  hq    : Hq
  slc   : Slc
  map   : Map
  fch   : Fch
  /-- the engines by port: Groat e at 0x10 + e, cipher pair q at 0x20 + q, winnow at 0x30 (R161) -/
  eng   : Tab Eng
  dgs   : Dgs
  wnw   : Wnw
  scans : Tab Scan
  cch   : Cch
  ecc   : Ecc
  drc   : Drc
  fwa   : Fwa
  pwr   : Pwr
  dbg   : Dbg
  lands : Lands
  mem   : Mem
  /-- answer of the last register access that no thread's load receives -/
  port  : Answer
  /-- free values drawn so far: the model's own counter, no state of the spec -/
  free  : Nat
deriving DecidableEq, Repr

/-- Why a run stops. No command of this model stops it: every meaning answers a next state. -/
inductive Fault where
  /-- Raised by nothing. Safe: the model has no fault, and a statement cannot rest on one. -/
  | never
deriving DecidableEq, Repr

/-- Why a command has no meaning. -/
inductive Refusal where
  /-- The command's meaning is not written yet. Raised by `exec` alone. Safe: the run stops. -/
  | notModelled (mnemonic : String)
deriving DecidableEq, Repr

/-- The state of the block. -/
structure State where
  m       : Mach
  /-- the test access port, which keeps its state through every reset but its own (R607, R614) -/
  tap     : Tap
  /-- commands that wait, first in first out -/
  pending : List Instr
deriving DecidableEq, Repr

/-- The SYS block at reset. The grade fuse reads HK96-A-C (DESIGN CHOICE: R5 gives a fuse). -/
def Sys.reset : Sys :=
  { grade := 0, fwprot := [], rsvFlag := false, rsvKind := false, rsvRing := 0, rsvCount := 0, rsvAddr := 0 }

/-- Everything right after module reset, before the boot steps of R574 run. -/
def Mach.reset : Mach :=
  { tb := 0, refLost := false, sys := Sys.reset, grn := Grn.reset, sch := Sch.reset, mbx := Mbx.reset, lnk := Lnk.reset,
    hq := Hq.reset, slc := Slc.reset, map := Map.reset, fch := Fch.reset, eng := [], dgs := Dgs.reset, wnw := Wnw.reset,
    scans := [], cch := Cch.reset, ecc := Ecc.reset, drc := Drc.reset, fwa := Fwa.reset, pwr := Pwr.reset, dbg := Dbg.reset,
    lands := Lands.reset, mem := Mem.reset, port := .none, free := 0 }

/-- The block right after reset, with no command waiting. -/
def State.reset : State := { m := Mach.reset, tap := Tap.reset, pending := [] }

end Sys2Proof.Machine
end

