-- ==== Sys2Proof/Machine/Ops.lean ====
section
/-! DEFINITION. The named operations that every family uses: reading and changing one unit of the state, packets to the adapter,
events and alarms, the ledgers, the scheduler's transitions, a thread's registers, retiring, exception entry and its return. -/

namespace Sys2Proof.Machine

/-! ## One unit of the state -/

def Mach.thr (m : Mach) (k : Nat) : Thr := tget Thr.reset m.sch.thrs k
def Mach.setThr (m : Mach) (k : Nat) (t : Thr) : Mach := { m with sch := { m.sch with thrs := tset m.sch.thrs k t } }
def Mach.modThr (m : Mach) (k : Nat) (f : Thr → Thr) : Mach := m.setThr k (f (m.thr k))

def Mach.core (m : Mach) (c : Nat) : Core := tget Core.reset m.sch.cores c
def Mach.setCore (m : Mach) (c : Nat) (v : Core) : Mach := { m with sch := { m.sch with cores := tset m.sch.cores c v } }

def Mach.evt (m : Mach) (e : Nat) : Evt := tget Evt.reset m.sch.events e
def Mach.setEvt (m : Mach) (e : Nat) (v : Evt) : Mach := { m with sch := { m.sch with events := tset m.sch.events e v } }

def Mach.box (m : Mach) (k : Nat) : Box := tget (Box.reset k) m.mbx.boxes k
def Mach.setBox (m : Mach) (k : Nat) (v : Box) : Mach := { m with mbx := { m.mbx with boxes := tset m.mbx.boxes k v } }

def Mach.lock (m : Mach) (n : Nat) : Lock := tget Lock.reset m.mbx.locks n
def Mach.setLock (m : Mach) (n : Nat) (v : Lock) : Mach := { m with mbx := { m.mbx with locks := tset m.mbx.locks n v } }

def Mach.buf (m : Mach) (k : Nat) : Buf := tget Buf.reset m.grn.bufs k
def Mach.setBuf (m : Mach) (k : Nat) (v : Buf) : Mach := { m with grn := { m.grn with bufs := tset m.grn.bufs k v } }

def Mach.cls (m : Mach) (c : Nat) : Cls := tget (Cls.reset c) m.grn.cls c
def Mach.setCls (m : Mach) (c : Nat) (v : Cls) : Mach := { m with grn := { m.grn with cls := tset m.grn.cls c v } }

def Mach.slq (m : Mach) (s : Nat) : Slq := tget Slq.reset m.grn.slq s
def Mach.setSlq (m : Mach) (s : Nat) (v : Slq) : Mach := { m with grn := { m.grn with slq := tset m.grn.slq s v } }

def Mach.ledger (m : Mach) (k : Nat) : Ledger := tget (Ledger.reset k) m.grn.ledgers k
def Mach.setLedger (m : Mach) (k : Nat) (v : Ledger) : Mach :=
  { m with grn := { m.grn with ledgers := tset m.grn.ledgers k v } }

def Mach.qp (m : Mach) (q : Nat) : Qp := tget Qp.reset m.hq.qps q
def Mach.setQp (m : Mach) (q : Nat) (v : Qp) : Mach := { m with hq := { m.hq with qps := tset m.hq.qps q v } }

def Mach.cmd? (m : Mach) (t : Nat) : Option Cmd := tget? m.hq.cmds t
def Mach.setCmd (m : Mach) (t : Nat) (v : Cmd) : Mach := { m with hq := { m.hq with cmds := tset m.hq.cmds t v } }

def Mach.slice (m : Mach) (s : Nat) : Slice := tget Slice.reset m.slc.slices s
def Mach.setSlice (m : Mach) (s : Nat) (v : Slice) : Mach := { m with slc := { m.slc with slices := tset m.slc.slices s v } }

def Mach.engine (m : Mach) (p : Nat) : Eng := tget Eng.reset m.eng p
def Mach.setEngine (m : Mach) (p : Nat) (v : Eng) : Mach := { m with eng := tset m.eng p v }

def Mach.die (m : Mach) (d : Nat) : Die := tget Die.reset m.fch.dies d
def Mach.setDie (m : Mach) (d : Nat) (v : Die) : Mach := { m with fch := { m.fch with dies := tset m.fch.dies d v } }

def Mach.chan (m : Mach) (n : Nat) : Chan := tget Chan.reset m.fch.chans n
def Mach.setChan (m : Mach) (n : Nat) (v : Chan) : Mach := { m with fch := { m.fch with chans := tset m.fch.chans n v } }

def Mach.rank (m : Mach) (q : Nat) : Rank := tget (Rank.reset q) m.drc.ranks q
def Mach.setRank (m : Mach) (q : Nat) (v : Rank) : Mach := { m with drc := { m.drc with ranks := tset m.drc.ranks q v } }

def Mach.key (m : Mach) (s : Nat) : Key := tget Key.reset m.dgs.keys s
def Mach.setKey (m : Mach) (s : Nat) (v : Key) : Mach := { m with dgs := { m.dgs with keys := tset m.dgs.keys s v } }

def Mach.dctx (m : Mach) (h : Nat) : Dctx := tget Dctx.reset m.dgs.ctxs h
def Mach.setDctx (m : Mach) (h : Nat) (v : Dctx) : Mach := { m with dgs := { m.dgs with ctxs := tset m.dgs.ctxs h v } }

def Mach.lane (m : Mach) (n : Nat) : Lane := tget Lane.reset m.lnk.lanes n
def Mach.setLane (m : Mach) (n : Nat) (v : Lane) : Mach := { m with lnk := { m.lnk with lanes := tset m.lnk.lanes n v } }

def Mach.mset? (m : Mach) (n : Nat) : Option MSet := tget? m.map.sets n
def Mach.setMset (m : Mach) (n : Nat) (v : MSet) : Mach := { m with map := { m.map with sets := tset m.map.sets n v } }

/-- The answer that a requester outside every thread receives. -/
def Mach.answer (m : Mach) (a : Answer) : Mach := { m with port := a }

/-- A free value of the pool-identity kind: one of n things, the choice left open (R49). -/
def Mach.draw (m : Mach) (n : Nat) : Nat × Mach :=
  if n ≤ 1 then (0, m) else (Config.pick m.free % n, { m with free := m.free + 1 })

/-- A free value for the RESULT of a completion, where no rule states it. -/
def Mach.openRs (m : Mach) : Nat × Mach := ((Config.openResult m.free).toNat, { m with free := m.free + 1 })

/-- The fabric is at rest: frozen (R607), or held in reset (R591, R596, R611). No block takes a stamp or accepts anything. -/
def Mach.resting (m : Mach) : Bool := m.dbg.frozen || m.pwr.hotReset || m.pwr.noVin || m.lands.nresetLow

/-- One tick of the time base (R32): it counts in every power state and in a freeze, and stays zero while the module is held in reset. -/
def Mach.tick (m : Mach) : Mach :=
  if m.pwr.hotReset || m.pwr.noVin || m.lands.nresetLow then m else { m with tb := m.tb + 1 }

/-- An effect of the fabric: nothing happens while it rests. -/
def Mach.fabric (m : Mach) (f : Mach → Mach) : Mach := if m.resting then m else f m

/-! ## Packets to the adapter -/

/-- Class of a packet type (R238): 0 posted, 1 non-posted, 2 completion, 3 management. -/
def classOf (ptype : Nat) : Nat :=
  if ptype = 4 then 1 else if ptype = 5 then 2 else if ptype = 6 ∨ ptype = 7 ∨ ptype = 8 then 3 else 0

/-- Put a packet at the end of its class's outbound stream (R236, R240). -/
def Mach.send (m : Mach) (p : Pkt) : Mach :=
  let c := classOf p.ptype
  { m with lnk := { m.lnk with out := tmod [] (fun l => l ++ [p]) m.lnk.out c } }

/-- A NOTE packet (R238, R243). -/
def Mach.note (m : Mach) (code arg : Nat) : Mach :=
  m.send { ptype := 8, len := 8, tag := 0, procid := 0, word1 := w64 code, data := leBytes 8 arg, cqe := none, asn := none }

/-! ## Observation windows and the ready lists -/

/-- Ticks of [a, b) that lie in [s, e). -/
def overlapTicks (a b s e : Nat) : Nat := Nat.min b e - Nat.max a s

/-- Sheaves that a tiller mask touches (R186). -/
def sheavesOf (mask : W64) : List Nat := (List.range 8).filter fun s => fld mask (8 * s + 7) (8 * s) != 0

/-- Groups whose lists a ready thread stands in: sheaves for ring 2, the culm group 8 for rings 0 and 1 (R186). -/
def Thr.groups (t : Thr) : List Nat := if t.ring = .r2 then sheavesOf t.mask else [8]

/-- Ready-list entries in use (R191). -/
def Mach.entriesUsed (m : Mach) : Nat := m.sch.ready.foldl (fun n r => n + ((m.thr r.tcb).groups).length) 0

/-- Entries in the list of level l of group g (R199). -/
def Mach.depth (m : Mach) (g l : Nat) : Nat :=
  (m.sch.ready.filter fun r => r.level == l && ((m.thr r.tcb).groups).contains g).length

/-- Ready threads of a slice (R199). -/
def Mach.readyOf (m : Mach) (s : Nat) : Nat :=
  (m.sch.ready.filter fun r => (m.thr r.tcb).ring == .r2 && (m.thr r.tcb).slice == s).length

/-- Note the depths that a thread's arrival reaches (R13, R199). -/
def Mach.noteDepth (m : Mach) (k : Nat) : Mach :=
  let t := m.thr k
  let mx := t.groups.foldl
    (fun a g => tmod 0 (fun v : Nat => Nat.max v (m.depth g t.curPrio)) a (32 * g + t.curPrio)) m.sch.rdyMax
  let so := if t.ring = .r2
    then tmod SlObs.reset (fun o => { o with maxReady := Nat.max o.maxReady (m.readyOf t.slice) }) m.sch.slobs t.slice
    else m.sch.slobs
  { m with sch := { m.sch with rdyMax := mx, slobs := so } }

/-- Make a thread READY with a new arrival stamped now, if the pool has the entries it needs (R184, R186, R191). -/
def Mach.makeReady (m : Mach) (k : Nat) (w : Wake) : Option Mach :=
  let t := m.thr k
  if m.entriesUsed + t.groups.length ≤ m.sch.pool then
    let t' := { t with state := .ready, curPrio := t.prio, waitKind := .none, wake := w }
    let m1 := m.setThr k t'
    some (Mach.noteDepth { m1 with sch := { m1.sch with ready := m1.sch.ready ++ [{ tcb := k, level := t.prio, stamp := m.tb }] } } k)
  else none

/-- Take a thread out of every list it stands in (R187), adding its time in READY to SCH_TCB_WAIT (R178). -/
def Mach.unready (m : Mach) (k : Nat) : Mach :=
  let waited := (m.sch.ready.filter fun r => r.tcb == k).foldl (fun n r => n + (m.tb - r.stamp)) 0
  let m1 := m.modThr k fun t => { t with waitTime := sat (2 ^ 64 - 1) (t.waitTime + waited) }
  { m1 with sch := { m1.sch with ready := m1.sch.ready.filter fun r => r.tcb != k } }

/-! ## Events -/

/-- Mailbox m's summary event (R207). -/
def mboxEvent (k : Nat) : Nat := 800 + k / 9

/-- Is the thread WAITING in WAITWORK? -/
def Mach.inWaitwork (m : Mach) (k : Nat) : Bool := (m.thr k).state == .waiting && (m.thr k).waitKind == .waitwork

/-- The scheduler accepts a raise of event e, or none if it cannot yet (R193, R196). -/
def Mach.acceptEv (m : Mach) (e : Nat) : Option Mach :=
  let v := m.evt e
  if v.bound && m.inWaitwork v.tcb then m.makeReady v.tcb (.event e)
  else if v.pend < 65535 then some (m.setEvt e { v with pend := v.pend + 1 }) else none

/-- The scheduler accepts a raise of mailbox k toward its bound thread, or none if it cannot yet (R207). -/
def Mach.acceptMbx (m : Mach) (k : Nat) : Option Mach :=
  let b := m.box k
  if b.bound && m.inWaitwork b.tcb then m.makeReady b.tcb (.event (mboxEvent k))
  else if b.pend < 65535 then some (m.setBox k { b with pend := b.pend + 1 }) else none

/-- Would accepting this need ready-list entries? -/
def Mach.needsList (m : Mach) : HeldRaise → Bool
  | .ev e => (m.evt e).bound && m.inWaitwork (m.evt e).tcb
  | .post e _ => (m.evt e).bound && m.inWaitwork (m.evt e).tcb
  | .mbx k _ => (m.box k).bound && m.inWaitwork (m.box k).tcb
  | .ready _ => true

/-- Hold what cannot be accepted; event 886 once each time the ready-list entries run out (R191, R196). -/
def Mach.holdRaise (m : Mach) (h : HeldRaise) : Mach :=
  let out := m.needsList h && !(m.sch.held.any m.needsList)
  let m1 := { m with sch := { m.sch with held := m.sch.held ++ [h] } }
  if out then
    match m1.acceptEv 886 with
    | some m2 => m2
    | none => { m1 with sch := { m1.sch with held := m1.sch.held ++ [.ev 886] } }
  else m1

/-- A raise reaches the scheduler: accepted, or held at its source (R196). -/
def Mach.deliver (m : Mach) (e : Nat) : Mach := (m.acceptEv e).getD (m.holdRaise (.ev e))

/-- Set bit e of PWR_ALARM_EVT; a NOTE 0x0001 when an unmasked bit goes from 0 to 1 (R600). -/
def Mach.alarmBit (m : Mach) (e : Nat) : Mach :=
  let was := m.pwr.alarmEvt.getLsbD e
  let m1 := { m with pwr := { m.pwr with alarmEvt := m.pwr.alarmEvt ||| (1 <<< e) } }
  if was || m.pwr.alertMask.getLsbD e then m1 else m1.note 1 e

/-- A hardware source raises event e. A frozen fabric keeps it asserted (R607). -/
def Mach.raise (m : Mach) (e : Nat) : Mach :=
  let m1 := if e < 32 then m.alarmBit e else m
  if m1.dbg.frozen then { m1 with dbg := { m1.dbg with asserted := m1.dbg.asserted ++ [e] } } else m1.deliver e

/-- An integrity alarm of a class, event 0 to 15, with the location of the value (R597, R598). -/
def Mach.alarm (m : Mach) (cls loc : Nat) : Mach :=
  let p := m.pwr
  let p1 := if p.firstValid then p else { p with firstValid := true, firstCls := cls, firstLoc := BitVec.ofNat 40 loc }
  let p2 := if cls = 0 ∨ cls = 6 then { p1 with stop := true } else p1
  Mach.raise { m with pwr := p2 } cls

/-- Class of a stored value's alarm (R597). -/
def Stored.cls : Stored → Nat
  | .overlap _ => 0 | .queue _ => 1 | .command _ => 2 | .slice _ => 3 | .block _ => 5 | .tokens _ => 7 | .binding _ => 8 | .measure _ => 12

/-- Where a stored value lies: its register's address, or the number of its unit (R602). -/
def Stored.loc : Stored → Nat
  | .overlap n | .queue n | .command n => n
  | .slice s => 0x200601000 + 0x20 * s
  | .block k => 0x200280000 + 0x80 * k
  | .tokens d => 0x200800100 + 0x1000 * (d / 16) + 8 * (d % 16)
  | .binding k => 0x200608000 + 8 * k
  | .measure n => 0x200B04000 + 0x40 * n

/-- Does a stored value disagree with its complement? -/
def Mach.unsound (m : Mach) (v : Stored) : Bool := m.pwr.mism.contains v

/-- A value that disagrees has been met: its class's alarm (R597, R598). -/
def Mach.meet (m : Mach) (v : Stored) : Mach :=
  Mach.alarm { m with pwr := { m.pwr with mism := m.pwr.mism.filter (· != v) } } v.cls v.loc

/-- A readiness that carries no event: START, YIELD, SLEEP, JOB.WAIT, DGS.FINISH (R191). -/
def Mach.ready (m : Mach) (k : Nat) (w : Wake) : Mach :=
  (m.makeReady k w).getD ((m.modThr k fun t => { t with wake := w }).holdRaise (.ready k))

/-- Boot step n of R574 is done: its stamp stands in log 0x50 from the first time on (R578). -/
def Mach.bootStep (m : Mach) (n : Nat) : Mach :=
  if (tget? m.fwa.bootAt n).isSome then m else { m with fwa := { m.fwa with bootAt := tset m.fwa.bootAt n m.tb } }

/-! ## Ledgers (R70 to R75) -/

/-- Change a ledger at its update element. The stored complements follow the change; a complement that disagreed raises the
integrity alarm of the ledger class (R79). -/
def Mach.ledMod (m : Mach) (k : Nat) (f : Ledger → Ledger) : Mach :=
  let l := m.ledger k
  let n := f l
  let n := { n with hwm := Nat.max n.hwm n.held
                    cpl := l.cpl ^^^ ledgerWord l.free l.held ^^^ ledgerWord n.free n.held
                    cplT := l.cplT ^^^ BitVec.ofNat 32 l.transit ^^^ BitVec.ofNat 32 n.transit }
  let m1 := m.setLedger k n
  if l.cpl = ~~~(ledgerWord l.free l.held) ∧ l.cplT = ~~~(BitVec.ofNat 32 l.transit) then m1
  else Mach.alarm { m1 with grn := { m1.grn with audCpl := true } } 6 (0x200101000 + 0x20 * k)

/-- Take n of ledger k: FREE to HELD. -/
def Mach.take (m : Mach) (k n : Nat) : Mach := m.ledMod k fun l => { l with free := l.free - n, held := l.held + n }
/-- Return n of ledger k: HELD to FREE. -/
def Mach.give (m : Mach) (k n : Nat) : Mach := m.ledMod k fun l => { l with free := l.free + n, held := l.held - n }
/-- HELD to TRANSIT: a named moment opens, for an item (R72). -/
def Mach.toTransit (m : Mach) (k n item : Nat) : Mach :=
  m.ledMod k fun l => { l with held := l.held - n, transit := l.transit + n
                               moments := l.moments ++ List.replicate n (item, 0) }
/-- Forget the first n moments of an item. -/
def dropMoments : Nat → Nat → List (Nat × Nat) → List (Nat × Nat)
  | 0, _, l => l
  | _ + 1, _, [] => []
  | n + 1, it, (i, a) :: t => if i = it then dropMoments n it t else (i, a) :: dropMoments (n + 1) it t
/-- TRANSIT to FREE: the named moment closes. -/
def Mach.fromTransit (m : Mach) (k n item : Nat) : Mach :=
  m.ledMod k fun l => { l with free := l.free + n, transit := l.transit - n, moments := dropMoments n item l.moments }
/-- TRANSIT to HELD: a handoff ends. -/
def Mach.transitToHeld (m : Mach) (k n item : Nat) : Mach :=
  m.ledMod k fun l => { l with held := l.held + n, transit := l.transit - n, moments := dropMoments n item l.moments }
/-- Every open moment of a ledger grows older by one of its units (R72). -/
def Mach.ageMoments (m : Mach) (k : Nat) : Mach :=
  m.setLedger k { m.ledger k with moments := (m.ledger k).moments.map fun x => (x.1, x.2 + 1) }

/-! ## Registers of a thread (R87 to R93) -/

/-- Read a general register: g0 reads zero (R87). -/
def Thr.gr (t : Thr) (r : BitVec 5) : W64 := if r = 0 then 0 else tget 0 t.g r.toNat
/-- Write a general register: a write to g0 is discarded (R87). -/
def Thr.gw (t : Thr) (r : BitVec 5) (v : W64) : Thr := if r = 0 then t else { t with g := tset t.g r.toNat v }
/-- Read a predicate: p0 reads 1 (R88). -/
def Thr.pr (t : Thr) (p : BitVec 3) : Bool := if p = 0 then true else tget false t.p p.toNat
/-- Write a predicate: a write to p0 is discarded (R88). -/
def Thr.pw (t : Thr) (p : BitVec 3) (b : Bool) : Thr := if p = 0 then t else { t with p := tset t.p p.toNat b }

/-- Code of a ring (R81). -/
def Ring.code : Ring → Nat
  | .r0 => 0
  | .r1 => 1
  | .r2 => 2

/-- The ts register of thread k (R91). -/
def Thr.ts (t : Thr) (k : Nat) : W64 :=
  at_ 62 t.ring.code ||| flagAt 61 t.exc ||| flagAt 60 t.ldc ||| at_ 48 (if t.ring = .r2 then t.slice else 0) |||
  at_ 36 k ||| at_ 29 t.prods.length ||| flagAt 28 t.pload.isSome ||| at_ 16 t.curPrio ||| at_ 0 t.core

/-- A 64-bit value from a program counter (R90). -/
def pcVal (p : PcWord) : W64 := w64 (pcAddr p)

/-! ## Retiring (R120 to R124) -/

/-- Land a product in ph and pl. -/
def Thr.landProduct (t : Thr) (p : Product) : Thr := { t with ph := p.hi, pl := p.lo }
/-- Land a compatibility-mode load. -/
def Thr.landLoad (t : Thr) (l : PendLoad) : Thr := { t.gw l.rd l.val with pload := none }

/-- One retired instruction passes over the pending products: those that reach their place land. -/
def Thr.ageProducts (t : Thr) : Thr :=
  let ps := t.prods.map fun p => { p with left := p.left - 1 }
  let t1 := (ps.filter fun p => p.left == 0).foldl Thr.landProduct t
  { t1 with prods := ps.filter fun p => p.left != 0 }

/-- One retired instruction passes over the pending load. -/
def Thr.ageLoad (t : Thr) : Thr :=
  match t.pload with
  | none => t
  | some l => if l.left ≤ 1 then t.landLoad l else { t with pload := some { l with left := l.left - 1 } }

/-- An instruction of the thread retires (R120). -/
def Thr.retire (t : Thr) : Thr := { t.ageProducts.ageLoad with retired := t.retired + 1 }

/-- Go on to the next instruction. -/
def Thr.advance (t : Thr) : Thr := { t with pc := t.pc + 1 }

/-! ## Leaving a core and stopping -/

/-- Core c loses its thread and asks for work (R188); its busy ticks of the window are counted (R199). -/
def Mach.freeCore (m : Mach) (c : Nat) : Mach :=
  let v := m.core c
  match v.thr with
  | none => m
  | some k =>
    let n := overlapTicks v.since m.tb m.sch.obsStart.toNat m.sch.obsEnd.toNat
    let t := m.thr k
    let so := if t.ring = .r2
      then tmod SlObs.reset (fun o => { o with busy := sat (2 ^ 32 - 1) (o.busy + n) }) m.sch.slobs t.slice
      else m.sch.slobs
    let m1 := m.setCore c { v with thr := none, asking := true }
    { m1 with sch := { m1.sch with busy := tmod 0 (fun b => b + n) m.sch.busy c, slobs := so } }

/-- The spikelet that a stopped filter thread served ends with a status (R113, R494). -/
def Mach.scanStopped (m : Mach) (k status low : Nat) : Mach :=
  let upd := fun (e : Nat × Spk) =>
    if e.2.state = .running k then (e.1, { e.2 with state := .failed status low }) else e
  { m with scans := m.scans.map fun s => (s.1, { s.2 with spks := s.2.spks.map upd }) }

/-- A thread is STOPPED under R112 with an exception record: its spikelet fails, and the stop raises an event (R112, R113). -/
def Mach.stopAs (m : Mach) (k : Nat) (xr : W64) (low : Nat) : Mach :=
  let t := m.thr k
  let m1 := m.setThr k { t with state := .stopped, xrec := xr, waitKind := .none, stopPend := false, hold := .none }
  (m1.scanStopped k 0x0408 low).raise (match t.ring with | .r2 => 880 | .r1 => 881 | .r0 => 882)

/-- A thread stops under R112: it keeps its exception record, and its core asks for work. -/
def Mach.stopThread (m : Mach) (k : Nat) (word : W32) (cause detail : Nat) : Mach :=
  (m.freeCore (m.thr k).core).stopAs k ((word.setWidth 64 <<< 32) ||| at_ 8 detail ||| at_ 0 cause) (cause + 256 * detail)

/-- A thread stops by command (R183): no event, no record. -/
def Mach.stopQuiet (m : Mach) (k : Nat) : Mach :=
  m.modThr k fun t => { t with state := .stopped, waitKind := .none, stopPend := false, xrec := 0, wake := .none }

/-! ## Exceptions (R107 to R111) -/

/-- Take an exception at the thread's pc: entry into its handler (R110), or a stop (R112). -/
def Mach.exception (m : Mach) (k : Nat) (word : W32) (cause detail : Nat) (xa : W64) : Mach :=
  let t := m.thr k
  if t.exc || t.handler == 0 then m.stopThread k word cause detail
  else
    m.setThr k { t with
      xpc := t.pc
      xc := (word.setWidth 64 <<< 32) ||| at_ 8 detail ||| at_ 0 cause
      xa := xa
      savProds := t.prods
      savLoad := t.pload
      prods := []
      pload := none
      exc := true
      hold := .none
      pc := t.handler }

/-- Return from an exception: RESUME with TS_EXC set (R111). The handler's own pending effects are discarded first. -/
def Thr.resumed (t : Thr) : Thr :=
  { t with prods := t.savProds, pload := t.savLoad, savProds := [], savLoad := none, exc := false, pc := t.xpc }

/-! ## Identities -/

/-- The lock identity of a requester (R209). -/
def Who.ident (w : Who) : W64 :=
  at_ 32 1 ||| at_ 30 w.ring.code ||| at_ 16 (if w.ring = .r2 then w.slice else 0) ||| at_ 0 w.tcb

/-- The requester that thread k is. -/
def Mach.who (m : Mach) (k : Nat) : Who :=
  let t := m.thr k
  { ring := t.ring, slice := if t.ring = .r2 then t.slice else 0, tcb := k, dbg := false }

/-- The owner identity under which a requester allocates (R56, R63). -/
def Who.owner (w : Who) : BitVec 16 :=
  match w.ring with
  | .r0 => 0x1000
  | .r1 => 0x2000
  | .r2 => BitVec.ofNat 16 (0x3000 + w.slice)

/-- The slice that a requester's work is charged to. -/
def Who.charge (w : Who) : Option Nat := if w.ring = .r2 then some w.slice else none

end Sys2Proof.Machine
end

