-- ==== Sys2Proof/Machine/Flags.lean ====
section
/-! DEFINITION. The predicate computations: conditions of CMP and CMPI, the ways a result enters a predicate, predicate logic,
and the guard (R94, R133, R134). -/

namespace Sys2Proof.Machine

/-- A condition on two values (R133). The codes 8 to 15 are reserved and reach no meaning. -/
def condHolds (cond : Nat) (a b : W64) : Bool :=
  match cond with
  | 0 => a == b
  | 1 => a != b
  | 2 => a.slt b
  | 3 => b.sle a
  | 4 => a.ult b
  | 5 => b.ule a
  | 6 => (a &&& b) != 0
  | _ => (a &&& b) == 0

/-- How CMP enters its condition into a predicate (R133): set, AND or OR. -/
def combine (comb : BitVec 2) (old c : Bool) : Bool :=
  if comb = 0 then c else if comb = 1 then old && c else old || c

/-- Predicate logic (R134). -/
def predOp (op : BitVec 2) (a b : Bool) : Bool :=
  if op = 0 then a && b else if op = 1 then a || b else if op = 2 then a ^^ b else a && !b

/-- The guard of an instruction: p[PRED] XOR INV (R94). -/
def Thr.guard (t : Thr) (gd : BitVec 4) : Bool := t.pr (gd.extractLsb' 0 3) ^^ gd.getLsbD 3

end Sys2Proof.Machine
end

