-- ==== Sys2Proof/Machine/Operands.lean ====
section
/-! DEFINITION. The operand forms and value computations of the Aedjor instructions: sign extension, shifts, move wide, effective
addresses, branch targets, products, division steps, bit operations and CRC steps (chapter 04). -/

namespace Sys2Proof.Machine

/-- Sign-extend an immediate to 64 bits (R127). -/
def sx {n : Nat} (v : BitVec n) : W64 := v.signExtend 64

/-- The four shifts of R131, by kind. -/
def shiftBy (kind : BitVec 2) (a : W64) (n : Nat) : W64 :=
  if kind = 0 then a <<< n else if kind = 1 then a >>> n else if kind = 2 then a.sshiftRight n else a.rotateRight n

/-- A register shift amount: rb[5:0] (R130). -/
def amount (b : W64) : Nat := b.toNat % 64

/-- Signed minimum (R130). -/
def minS (a b : W64) : W64 := if a.slt b then a else b
/-- Signed maximum. -/
def maxS (a b : W64) : W64 := if a.slt b then b else a
/-- Unsigned minimum. -/
def minU (a b : W64) : W64 := if a.ult b then a else b
/-- Unsigned maximum. -/
def maxU (a b : W64) : W64 := if a.ult b then b else a

/-- Keep the low n bits, sign-extended. -/
def sextLow (n : Nat) (a : W64) : W64 := (a.setWidth n).signExtend 64
/-- Keep the low n bits, zero-extended. -/
def zextLow (n : Nat) (a : W64) : W64 := (a.setWidth n).setWidth 64

/-- MOVI.h (R132). -/
def moveWide (old : W64) (h : BitVec 2) (k : Bool) (imm : BitVec 16) : W64 :=
  let sh := 16 * h.toNat
  let v : W64 := imm.setWidth 64 <<< sh
  if k then (old &&& ~~~((0xFFFF : W64) <<< sh)) ||| v else v

/-- The unsigned 128-bit product, high and low halves (R140). -/
def mulU (a b : W64) : W64 × W64 :=
  let p := a.toNat * b.toNat
  (BitVec.ofNat 64 (p / 2 ^ 64), BitVec.ofNat 64 p)

/-- The signed 128-bit product, high and low halves (R140). -/
def mulS (a b : W64) : W64 × W64 :=
  let p : BitVec 128 := BitVec.ofInt 128 (a.toInt * b.toInt)
  (p.extractLsb' 64 64, p.extractLsb' 0 64)

/-- One restoring division step on ph and pl (R141). -/
def divStep (ph pl d : W64) : W64 × W64 :=
  let t := ph.toNat * 2 + (if pl.getLsbD 63 then 1 else 0)
  let lo := pl <<< 1
  if d.toNat ≤ t then (BitVec.ofNat 64 (t - d.toNat), lo ||| 1) else (BitVec.ofNat 64 t, lo)

/-- Reverse the low n bits of a count. -/
def revBits : Nat → Nat → Nat
  | 0, _ => 0
  | n + 1, v => (v % 2) * 2 ^ n + revBits n (v / 2)

/-- Reverse all 64 bits (R142). -/
def bitRev (a : W64) : W64 := w64 (revBits 64 a.toNat)
/-- Reverse the bits of each byte. -/
def byteBitRev (a : W64) : W64 := w64 (leNat ((leBytes 8 a.toNat).map fun b => BitVec.ofNat 8 (revBits 8 b.toNat)))
/-- Reverse the bytes. -/
def byteSwap (a : W64) : W64 := w64 (leNat (leBytes 8 a.toNat).reverse)

/-- Zeros from bit n−1 downward. -/
def clzFrom : Nat → W64 → Nat
  | 0, _ => 0
  | n + 1, a => if a.getLsbD n then 0 else 1 + clzFrom n a
/-- Leading zeros. -/
def countLead (a : W64) : Nat := clzFrom 64 a
/-- Trailing zeros. -/
def countTrail (a : W64) : Nat := clzFrom 64 (bitRev a)
/-- Number of ones. -/
def popCount (a : W64) : Nat := (List.range 64).foldl (fun n i => if a.getLsbD i then n + 1 else n) 0

/-- CRC.STEP (R143): the bits of the register above the width play no part, and the result is zero-extended. -/
def crcStep (pp ss : BitVec 2) (c d : W64) : W64 := crcFold pp (crcTrim pp c) (leBytes (2 ^ ss.toNat) d.toNat)

/-- The target of a pc-relative branch, modulo 2^64 (R137). -/
def branchTarget (pc : PcWord) (off : BitVec 22) : W64 := pcVal pc + 4 * sx off

/-- Is a 64-bit value inside the 40-bit address space? -/
def in40 (a : W64) : Bool := a.toNat < 2 ^ 40

/-- Element size of a block-repeat instruction in bytes (R146). -/
def eszBytes (esz : BitVec 2) : Nat := 2 ^ esz.toNat

end Sys2Proof.Machine
end

