-- ==== Sys2Proof/Machine/Store.lean ====
section
/-! DEFINITION. The stored bytes of the physical map, hardware zeroing, and the granary's buffers: allocation, release and handoff
(chapters 02 and 03, R512). -/

namespace Sys2Proof.Machine

/-- The parts of the physical map (R97). -/
inductive Region where
  | rom | fwa | granary | control | dram (q : Nat) | hole
deriving DecidableEq, Repr

/-- First address of the granary (R52). -/
def granaryBase : Nat := 0x100000000
/-- First address of the firmware array (R559). -/
def fwaBase : Nat := 0x10000000
/-- First address of DRAM range 0 (R97). -/
def dramBase : Nat := 0x1000000000
/-- Bytes of a DRAM range. -/
def rangeSize : Nat := 0x200000000

/-- The part of the map that an address lies in (R97). -/
def regionOf (a : Nat) : Region :=
  if a < 0x40000 then .rom
  else if fwaBase ≤ a ∧ a < fwaBase + 0x2000000 then .fwa
  else if granaryBase ≤ a ∧ a < granaryBase + 0x3000000 then .granary
  else if 0x200000000 ≤ a ∧ a < 0x201400000 then .control
  else if dramBase ≤ a ∧ a < dramBase + 4 * rangeSize then .dram ((a - dramBase) / rangeSize)
  else .hole

/-- What an unlisted address reads as: 0xFF in the firmware array, whose erased bytes hold ones (R560), and zero elsewhere
(DRAM and buffers are zeroed before use, R63, R547). -/
def memDef (a : Nat) : Byte := if regionOf a = .fwa then 0xFF else 0

/-- The stored data byte at a physical address; the boot ROM's bytes are its own (R97). -/
def Mach.byte (m : Mach) (a : Nat) : Byte := if a < 0x40000 then Config.romByte a else memGet memDef m.mem.cells a

/-- Check bits of a byte as stored when nothing lists them: an erased byte of the array holds ones (R560). -/
def chkDef (a : Nat) (d : Byte) : BitVec 5 := if regionOf a = .fwa ∧ d = 0xFF then 0b11111 else checkOf d

/-- The stored check bits at a physical address (R523, R560). -/
def Mach.check (m : Mach) (a : Nat) : BitVec 5 :=
  (tget? m.mem.chk a).getD (chkDef a (m.byte a))

/-- Store a data byte with given check bits. -/
def Mach.putRaw (m : Mach) (a : Nat) (d : Byte) (c : BitVec 5) : Mach :=
  { m with mem := { m.mem with
      cells := memSet memDef m.mem.cells a d
      chk := if c = chkDef a d then tdel m.mem.chk a else tset m.mem.chk a c } }

/-- Store a data byte with its check bits (R523). -/
def Mach.putByte (m : Mach) (a : Nat) (d : Byte) : Mach := m.putRaw a d (checkOf d)

/-- Store bytes in ascending order, each with its check bits and, in DRAM, its word's tag (R538). -/
def Mach.putBytes (m : Mach) : Nat → List Byte → Mach
  | _, [] => m
  | a, b :: t => Mach.putBytes { m.putByte a b with mem := { (m.putByte a b).mem with tags := tdel (m.putByte a b).mem.tags (a / 8) } }
                   (a + 1) t

/-- The stored bytes stand in their canonical form: addresses strictly rising, none listed that holds what an unlisted one reads as. -/
def Memory.wf (m : Mem) : Bool := memWf memDef m.cells

/-- Replace the cells of a range by others that lie in the range, in rising order. -/
def spliceCells (l : List Host.Cell) (lo hi : Nat) (n : List Host.Cell) : List Host.Cell :=
  (l.filter fun e => e.1 < lo) ++ n ++ l.filter fun e => hi ≤ e.1

/-- Cells of a byte list placed at an address. -/
def cellsAt : Nat → List Byte → List Host.Cell
  | _, [] => []
  | a, b :: t => if b = memDef a then cellsAt (a + 1) t else (a, b) :: cellsAt (a + 1) t

/-- Store a long run of bytes in the granary or DRAM: as `putBytes`, over the whole range at once. -/
def Mach.putRun (m : Mach) (a : Nat) (l : List Byte) : Mach :=
  let hi := a + l.length
  { m with mem := { cells := spliceCells m.mem.cells a hi (cellsAt a l)
                    chk := tdelRange m.mem.chk a hi
                    tags := tdelRange m.mem.tags (a / 8) (ceilDiv hi 8) } }

/-- The n stored bytes from an address, without their checks. -/
def Mach.rawBytes (m : Mach) (a n : Nat) : List Byte := (List.range n).map fun i => m.byte (a + i)

/-! ## Discarding lines and zeroing (R512) -/

/-- Drop every line of a cache that meets [lo, hi), dirty or not, from its ways and its eviction buffer. -/
def Cache.drop (c : Cache) (lo hi : Nat) : Cache :=
  let keep := fun (l : Line) => decide (64 * l.base + 64 ≤ lo) || decide (hi ≤ 64 * l.base)
  { c with lines := c.lines.filter keep, evict := c.evict.filter keep }

/-- Drop every line of [lo, hi) in every cache. -/
def Mach.discard (m : Mach) (lo hi : Nat) : Mach :=
  let f := fun (e : Nat × Cache) => (e.1, e.2.drop lo hi)
  { m with cch := { m.cch with l1i := m.cch.l1i.map f, l1d := m.cch.l1d.map f, sheaf := m.cch.sheaf.map f
                               mapc := m.cch.mapc.drop lo hi } }

/-- Hardware zeroing of [lo, hi): every line is discarded first, then the bytes read zero with good codes (R512). -/
def Mach.zero (m : Mach) (lo hi : Nat) : Mach :=
  let m1 := m.discard lo hi
  { m1 with mem := { cells := memClear m1.mem.cells lo hi, chk := tdelRange m1.mem.chk lo hi
                     tags := tdelRange m1.mem.tags (lo / 8) (ceilDiv hi 8) } }

/-! ## Buffers (R52 to R66) -/

/-- Buffers in the granary: 768 in limp mode (R579). -/
def Mach.bufTotal (m : Mach) : Nat := if m.fwa.limp then 768 else 12288

/-- Address of byte 0 of buffer k (R54, R579). -/
def bufAddr (k : Nat) : Nat := granaryBase + 4096 * k
/-- The handle of buffer k (R53). -/
def handleOf (k : Nat) : Nat := (k / 3072) * 4096 + k % 3072
/-- The buffer that a handle names: none for an invalid handle (R53, R579). -/
def Mach.bufOf (m : Mach) (h : Nat) : Option Nat :=
  let k := (h / 4096) * 3072 + h % 4096
  if h < 16384 ∧ h % 4096 < 3072 ∧ k < m.bufTotal then some k else none

/-- The first index from b on, r free ones passed over, where the rising list names those in use. -/
def nthFree : Nat → Nat → List Nat → Nat
  | r, b, [] => b + r
  | r, b, k :: t => if b + r < k then b + r else nthFree (r - (k - b)) (k + 1) t

/-- Buffers in use, rising. -/
def Mach.bufsInUse (m : Mach) : List Nat :=
  (m.grn.bufs.filter fun e => e.2.state != .free && decide (e.1 < m.bufTotal)).map (·.1)

/-- Unfilled floors of every class but c (R59). -/
def Mach.unfilled (m : Mach) (c : Nat) : Nat :=
  (List.range 7).foldl (fun n d => if d = c then n else n + ((m.cls d).floor - (m.cls d).held)) 0

/-- May class c take one more buffer (R59)? -/
def Mach.classPermits (m : Mach) (c : Nat) : Bool :=
  let h := (m.cls c).held
  let free := (m.ledger 0).free
  decide (h < (m.cls c).ceil) &&
    (if h < (m.cls c).floor then decide (0 < free) else decide (m.unfilled c < free))

/-- Why an allocation is refused: 0 granted, 1 class at ceiling, 2 quota reached, 3 free count reserved or zero (R59, R60, R62). -/
def Mach.allocReason (m : Mach) (c : Nat) (charge : Option Nat) : Nat :=
  let full := match charge with
    | some s => decide ((m.slq s).quota ≤ (m.slq s).held)
    | none => false
  if (m.cls c).ceil ≤ (m.cls c).held then 1
  else if full then 2
  else if m.classPermits c && decide (m.bufsInUse.length < m.bufTotal) then 0 else 3

/-- One more buffer held in class c. -/
def Mach.classUp (m : Mach) (c : Nat) : Mach :=
  let v := m.cls c
  m.setCls c { v with held := v.held + 1, hwm := Nat.max v.hwm (v.held + 1) }
/-- One buffer fewer held in class c. -/
def Mach.classDown (m : Mach) (c : Nat) : Mach :=
  let v := m.cls c
  m.setCls c { v with held := v.held - 1 }
/-- The charged count of a slice changes. -/
def Mach.charge (m : Mach) (o : Option Nat) (f : Nat → Nat) : Mach :=
  match o with
  | none => m
  | some s => m.setSlq s { m.slq s with held := f (m.slq s).held }

/-- Allocate one buffer that R59 and R60 permit: any free one (R49), its contents zero (R63). Gives its index. -/
def Mach.alloc (m : Mach) (c : Nat) (owner : BitVec 16) (charge : Option Nat) : Nat × Mach :=
  let (r, m1) := m.draw (m.bufTotal - m.bufsInUse.length)
  let k := nthFree r 0 m1.bufsInUse
  let m2 := m1.setBuf k { state := .owned, owner := owner, cls := c, charged := charge, cplOk := true }
  let m3 := ((m2.classUp c).charge charge (· + 1)).take 0 1
  (k, m3.zero (bufAddr k) (bufAddr k + 4096))

/-- Release buffer k: its lines are discarded, its bytes zeroed, and its counts return (R64, R512). -/
def Mach.release (m : Mach) (k : Nat) : Mach :=
  let b := m.buf k
  let m1 := m.zero (bufAddr k) (bufAddr k + 4096)
  let m2 := { m1 with grn := { m1.grn with bufs := tdel m1.grn.bufs k, handoffs := m1.grn.handoffs.filter fun x => x.1 != k } }
  let m3 := (m2.classDown b.cls).charge b.charged (· - 1)
  if b.state = .transit then m3.fromTransit 0 1 k else m3.give 0 1

/-- Release every buffer of a list that is not free. -/
def Mach.releaseAll (m : Mach) (l : List Nat) : Mach :=
  l.foldl (fun m k => if (m.buf k).state = .free then m else m.release k) m

/-- Allocate n buffers one after another; none if one of them is refused, and then nothing is taken. -/
def Mach.allocMany (m : Mach) (c : Nat) (owner : BitVec 16) (charge : Option Nat) : Nat → Option (List Nat × Mach)
  | 0 => some ([], m)
  | n + 1 =>
    if m.allocReason c charge = 0 then
      let (k, m1) := m.alloc c owner charge
      match Mach.allocMany m1 c owner charge n with
      | none => none
      | some (l, m2) => some (k :: l, m2)
    else none

/-- A granary fault: GRN_FAULT_CNT counts and event 1000 is raised (R64). -/
def Mach.granaryFault (m : Mach) : Mach :=
  Mach.raise { m with grn := { m.grn with faultCnt := sat (2 ^ 32 - 1) (m.grn.faultCnt + 1) } } 1000

/-- The buffer that a granary address lies in. -/
def bufAt (a : Nat) : Nat := (a - granaryBase) / 4096

end Sys2Proof.Machine
end

