-- ==== Sys2Proof/Machine/Complete.lean ====
section
/-! DEFINITION. Operations of the host-queue block that other blocks use: power return, acceptance, posting completions, ending
commands, deleting threads, ending scans, queue reset and limp mode (chapters 05, 07, 14 and 17). -/

namespace Sys2Proof.Machine

/-! ## Core voltage and power states -/

/-- The effective VCORE level: the numerically larger of THROT and REQ (R26, R29). -/
def Pwr.level (p : Pwr) : Nat := Nat.max p.throt p.req

/-- The hottest quadrant sensor in °C, from PWR_TEMP_Q. -/
def hottest (t : W32) : Int :=
  (List.range 4).foldl (fun (x : Int) i => let v := (t.extractLsb' (8 * i) 8).toInt; if x < v then v else x) (t.extractLsb' 0 8).toInt

/-- The sense setting that a level and a temperature need (R561). -/
def senseNeed (level : Nat) (temp : Int) : Nat :=
  let row := if temp < 40 then 0 else if temp < 85 then 1 else 2
  match level with
  | 0 => 3 + row
  | 1 => 4 + row
  | 2 => 5 + row
  | _ => 7 + 2 * row

/-- The base firmware keeps FWA_SENSE at or above the setting that the level and the temperature need (R561). -/
def Mach.keepSense (m : Mach) : Mach :=
  if m.fwa.bootRec.isEmpty then m
  else { m with fwa := { m.fwa with sense := Nat.max m.fwa.sense (senseNeed m.pwr.level (hottest m.pwr.tempQ)) } }

/-- The requested level changes; VCORE settles when the effective level changes (R26, R27). -/
def Mach.setVreq (m : Mach) (lv : Nat) : Mach :=
  let p := m.pwr
  let p1 := { p with req := lv }
  Mach.keepSense { m with pwr := { p1 with settling := p.settling || p1.level != p.level } }

/-- Every rank in use enters or leaves self refresh (R546). -/
def Mach.selfRefresh (m : Mach) (b : Bool) : Mach :=
  let one := fun (t : Tab Rank) (q : Nat) =>
    let r := tget (Rank.reset q) t q
    if r.state = .off then t else tset t q { r with selfref := b }
  { m with drc := { m.drc with ranks := (List.range 5).foldl one m.drc.ranks } }

/-- The scrubber stops at its place (R532). -/
def Mach.scrubHalt (m : Mach) : Mach :=
  if m.ecc.scrub.running then
    Mach.raise { m with ecc := { m.ecc with scrub := { m.ecc.scrub with running := false, stopped := true } } } 683
  else m

/-- An arrival in a power state: NOTE 0x0003 and the VCORE request of R592; the scrubber stops in P3 and P4 (R532). -/
def Mach.arrive (m : Mach) (p : Nat) : Mach :=
  let m1 := { m with hq := { m.hq with pstate := p } }
  let m2 := if p = 0 then m1.setVreq 1 else if p = 1 then m1.setVreq 2 else if p = 2 then m1 else m1.setVreq 3
  let m3 := if p ≥ 3 then (m2.selfRefresh true).scrubHalt else m2.selfRefresh false
  m3.note 3 p

/-- Is step 3 of an entry past: a quiet window has closed in time (R284)? -/
def PEntry.shut (e : PEntry) (now : Nat) : Bool :=
  e.closed || e.quiet.any fun s => decide (s + 100000 ≤ now) && decide (s + 100000 < e.at_ + 10000000)

/-- Has the entry in progress passed step 3? -/
def Mach.entryShut (m : Mach) : Bool := m.hq.entry.any fun e => e.shut m.tb

/-- An accepted command returns the module from P2, P3 or P4 to P0 (R283); behind step 3 of an entry it waits for the state (R284). -/
def Mach.wake (m : Mach) : Mach :=
  if m.hq.pstate ≥ 2 ∧ ¬ m.entryShut then m.arrive 0 else m

/-! ## Acceptance (R45, R261) -/

/-- Opcode of a command. -/
def SqEnt.opc (e : SqEnt) : Nat := e.words.toNat % 256
/-- Word i of a command (R263). -/
def SqEnt.word (e : SqEnt) (i : Nat) : W64 := e.words.extractLsb' (64 * i) 64
/-- CID. -/
def SqEnt.cid (e : SqEnt) : Nat := fld (e.word 0) 63 48
/-- NSID. -/
def SqEnt.nsid (e : SqEnt) : Nat := fld (e.word 0) 19 16
/-- WARM. -/
def SqEnt.warm (e : SqEnt) : Bool := bit (e.word 0) 9
/-- ORD. -/
def SqEnt.ord (e : SqEnt) : Bool := bit (e.word 0) 8
/-- LBA. -/
def SqEnt.lba (e : SqEnt) : Nat := (e.word 1).toNat
/-- NBLK. -/
def SqEnt.nblk (e : SqEnt) : Nat := fld (e.word 2) 31 0
/-- HADDR. -/
def SqEnt.haddr (e : SqEnt) : Nat := (e.word 3).toNat
/-- DLEN. -/
def SqEnt.dlen (e : SqEnt) : Nat := fld (e.word 4) 31 0
/-- PARAM0 to PARAM2. -/
def SqEnt.param (e : SqEnt) (i : Nat) : W64 := e.word (5 + i)

/-- D of a queue pair (R255). -/
def Qp.size (q : Qp) : Nat := 2 ^ q.depth

/-- A window-ending acceptance: a command accepted inside the open quiet window ends it (R284). -/
def Mach.quietBreak (m : Mach) : Mach :=
  match m.hq.entry with
  | none => m
  | some e =>
    match e.quiet with
    | none => m
    | some s => if m.tb < s + 100000 then { m with hq := { m.hq with entry := some { e with quiet := none } } } else m

/-- The next acceptance sequence number is given; the module wakes, but for a SET-POWER to its present state (R45, R258, R283, R284). -/
def Mach.number (m : Mach) (stay : Bool) : Nat × Mach :=
  let n := m.hq.asn
  let m1 : Mach := { m with hq := { m.hq with asn := (n + 1) % 2 ^ 32 } }
  (n, Mach.quietBreak (if stay then m1 else m1.wake))

/-- Operation tags in use, rising: of commands, and of completions not transmitted yet (R70, R72). -/
def Mach.tagsInUse (m : Mach) : List Nat :=
  ((m.hq.cqes.filterMap (·.tag)).foldl (fun t n => tset t n ()) (m.hq.cmds.map fun e => (e.1, ()))).map (·.1)

/-- Operation tags in use at most. -/
def tagTotal : Nat := 65536

/-- Accept an entry for a queue pair: number, tag and stamp in one step (R261). Gives the tag. -/
def Mach.acceptEnt (m : Mach) (q : Nat) (e : SqEnt) (owner : Option Nat) (stay : Bool) : Nat × Mach :=
  let (n, m1) := m.number stay
  let (r, m2) := m1.draw (tagTotal - m1.tagsInUse.length)
  let t := nthFree r 0 m2.tagsInUse
  let c : Cmd := { qp := q, ent := e, asn := n, owner := owner, at_ := m2.tb, resp := m2.tb, notices := 0,
                   noticeUp := false, phase := .waiting, started := false, drds := [], bufs := [],
                   count := if e.opc = 0xA then m.hq.pstate else 0,
                   verdict := none, lostDwr := false, hints := [], stopReq := none }
  (t, (m2.setCmd t c).take 1 1)

/-! ## Completions (R259, R260) -/

/-- The two words of a completion (R260). -/
def Cqe.bytes (c : Cqe) : List Byte :=
  leBytes 8 (c.asn * 2 ^ 32 + c.status * 2 ^ 16 + c.cid) ++
  leBytes 8 ((if c.phase then 2 ^ 63 else 0) + c.qid * 2 ^ 48 + c.result % 2 ^ 48)

/-- Entries of a queue pair's completion queue (R255, R259). -/
def Mach.cqSize (m : Mach) (q : Nat) : Nat := 2 * (m.qp q).size + (if q = 0 then 64 else 0)

/-- Post a completion: it takes the next index and the current phase of its completion queue, and its packet goes to the P class. -/
def Mach.postCqe (m : Mach) (c : Cqe) : Mach :=
  let v := m.qp c.qp
  let c1 := { c with idx := v.cqIdx, phase := v.phase }
  let wrap := decide (m.cqSize c.qp ≤ v.cqIdx + 1)
  let m1 := m.setQp c.qp { v with cqUsed := v.cqUsed + 1, cqIdx := if wrap then 0 else v.cqIdx + 1, phase := v.phase ^^ wrap }
  let m2 := { m1 with hq := { m1.hq with cqes := m1.hq.cqes ++ [c1] } }
  m2.send { ptype := 2, len := 16, tag := 0, procid := c.procid, word1 := w64 c.qp, data := c1.bytes, cqe := some c1, asn := none }

/-- Return overlap entries to the OVL ledger (R70, R270). -/
def Mach.dropOvl (m : Mach) (p : Ovl → Bool) : Mach :=
  let n := (m.hq.ovls.filter p).length
  let m1 := { m with hq := { m.hq with ovls := m.hq.ovls.filter fun o => !p o } }
  if n = 0 then m1 else m1.give 3 n

/-- Open a quiet window when no other command is outstanding (R284 step 2). -/
def Mach.quietOpen (m : Mach) : Mach :=
  match m.hq.entry with
  | none => m
  | some e =>
    if e.quiet.isNone && !e.closed && m.hq.cmds.all (fun c => c.1 == e.tag)
    then { m with hq := { m.hq with entry := some { e with quiet := some m.tb } } } else m

/-- Post the final completion of a command: its guard entry and its buffers are returned, its tag goes to TRANSIT (R70, R72, R260, R270). -/
def Mach.finishOne (m : Mach) (tag status result : Nat) : Mach :=
  match m.cmd? tag with
  | none => m
  | some c =>
    let st := if c.lostDwr then 0x0200 else status
    let r := if c.lostDwr then m.openRs else (result, m)
    let m1 := r.2.dropOvl fun o => o.asn == c.asn && o.kind == .guard
    let m2 := m1.releaseAll c.bufs
    let m3 := { m2 with hq := { m2.hq with cmds := tdel m2.hq.cmds tag }
                        fch := { m2.fch with got := m2.fch.got.filter fun g => g.tag != tag } }
    let due := (c.drds.filter fun d => !d.done).map (·.rtag)
    let m3 : Mach := { m3 with hq := { m3.hq with orphans := m3.hq.orphans ++ due, lastDone := m3.tb } }
    let m4 := m3.toTransit 1 1 tag
    let m5 := m4.postCqe { qp := c.qp, idx := 0, phase := false, asn := c.asn, status := st, cid := c.ent.cid, qid := c.qp,
                           result := r.1, procid := c.ent.procid, tag := some tag, notice := false, rsvd := false, again := false }
    m5.quietOpen

/-- Complete every ABORT whose last target has ended (R279). -/
def Mach.settleAborts : Nat → Nat → Mach → Mach
  | 0, _, m => m
  | n + 1, tag, m =>
    let abs := m.hq.aborts.map fun a => (a.1, a.2.filter (· != tag))
    let done := abs.filter fun a => a.2.isEmpty
    let m1 := { m with hq := { m.hq with aborts := abs.filter fun a => !a.2.isEmpty } }
    done.foldl (fun m a => Mach.settleAborts n a.1
      (m.finishOne a.1 0 (((m.cmd? a.1).bind (·.verdict)).getD (0, 0)).2)) m1

/-- End a command with its final completion, and the ABORTs that waited for it. -/
def Mach.finishAlone (m : Mach) (tag status result : Nat) : Mach :=
  Mach.settleAborts (m.hq.aborts.length + 1) tag (m.finishOne tag status result)

/-! ## Quarantine (R434 to R437) -/

/-- A GCM decryption gives up its quarantine: each buffer still in it is zeroed and freed, and its bytes return to QBYTE (R437). -/
def Mach.dropQuar (m : Mach) (p : Nat) (j : Job) : Mach :=
  let rest := j.qbufs.drop j.moved
  let mine := rest.filter fun k => (m.buf k).state != .free && (m.buf k).owner == BitVec.ofNat 16 (0xB000 + p % 16)
  let m1 := m.releaseAll mine
  if rest.isEmpty then m1 else m1.give 8 (4096 * rest.length)

/-- Put back a job of a port. -/
def Mach.setJob (m : Mach) (p : Nat) (j : Job) : Mach :=
  let e := m.engine p
  m.setEngine p { e with jobs := e.jobs.map fun x => if x.ctx = j.ctx ∧ x.num = j.num then j else x }

/-- A job's outcome is decided. -/
def Mach.jobRan (m : Mach) (p : Nat) (j : Job) (status result : Nat) : Mach :=
  m.setJob p { j with state := .ran, status := status, result := result, qbufs := [], moved := 0, key := 0 }

/-- Buffer k has left quarantine by a release of ring 0: the job that reserved it ends with BUS-ERROR (R436). -/
def Mach.quarLost (m : Mach) (k : Nat) : Mach :=
  match m.eng.findSome? fun e => (e.2.jobs.find? fun j => (j.qbufs.drop j.moved).contains k).map fun j => (e.1, j) with
  | none => m
  | some (p, j) => (m.dropQuar p j).jobRan p j 0x0409 0

/-! ## Deleting thread control blocks (R185) -/

/-- Thread control blocks: 64 in limp mode (R579). -/
def Mach.tcbTotal (m : Mach) : Nat := if m.fwa.limp then 64 else 4096

/-- Jobs of thread k that still hold a slot. -/
def Mach.jobsOf (m : Mach) (k : Nat) : Bool := m.eng.any fun e => e.2.jobs.any fun j => j.tcb == k
/-- Digest contexts that thread k holds. -/
def Mach.ctxsOf (m : Mach) (k : Nat) : List Nat :=
  (m.dgs.ctxs.filter fun e => e.2.open_ && e.2.tcb == k && e.2.forTag.isNone).map (·.1)

/-- Release digest context h (R169, R442). -/
def Mach.closeCtx (m : Mach) (h : Nat) : Mach :=
  Mach.give { m with dgs := { m.dgs with ctxs := tdel m.dgs.ctxs h } } 7 1

/-- A deleted block returns to FREE, and to the TCB ledger, once its jobs and contexts are done (R185). -/
def Mach.reap (m : Mach) (k : Nat) : Mach :=
  let t := m.thr k
  if t.deleting && !m.jobsOf k && (m.ctxsOf k).isEmpty then
    let m1 := { m with sch := { m.sch with thrs := tdel m.sch.thrs k } }
    let m2 := if t.ofSlice
      then { m1 with grn := { m1.grn with tcbOf := tmod 0 (· - 1) m1.grn.tcbOf t.slice } } else m1
    m2.give 4 1
  else m

/-- Ledger of the job slots of a port; the winnow array's slots are not one of the books (R70, R475). -/
def slotLedger (p : Nat) : Option Nat := if p / 16 = 1 then some 5 else if p / 16 = 2 then some 6 else none

/-- Is a job's slot free to return: complete, its completion accepted and its event accepted (R165, R196)? -/
def Job.finished (j : Job) : Bool := j.state == .complete && j.accepted && j.evDone

/-- The slots of finished jobs of port p return, and deleted blocks that waited for them with them (R70, R185). -/
def Mach.freeSlots (m : Mach) (p : Nat) : Mach :=
  let e := m.engine p
  let n := (e.jobs.filter Job.finished).length
  if n = 0 then m
  else
    let m1 := m.setEngine p { e with jobs := e.jobs.filter fun j => !j.finished }
    let m2 := match slotLedger p with
      | some k => m1.give k n
      | none => m1
    (m2.sch.thrs.filter fun t => t.2.deleting).foldl (fun m t => m.reap t.1) m2

/-- The completion event of a port (R419, R439, R483). -/
def portEvent (p : Nat) : Nat := if p / 16 = 1 then 512 + 8 * (p % 16) else if p / 16 = 2 then 576 + 8 * (p % 16) else 640

/-- The scheduler has accepted a held event e: if it is a port's, its oldest completion that waited for it is done with it (R196). -/
def Mach.jobEvent (m : Mach) (e : Nat) : Mach :=
  match m.eng.find? fun x => portEvent x.1 == e with
  | none => m
  | some (p, v) =>
    match v.jobs.find? fun j => j.state == .complete && !j.evDone with
    | none => m
    | some j =>
      let put := fun (x : Job) => if x.ctx = j.ctx ∧ x.num = j.num then { x with evDone := true } else x
      Mach.freeSlots (m.setEngine p { v with jobs := v.jobs.map put }) p

/-- The scheduler accepts the completions of a deleted block's jobs (R185). -/
def Mach.acceptFor (m : Mach) (k : Nat) : Mach :=
  let put := fun (x : Job) => if x.tcb = k ∧ x.state = .complete then { x with accepted := true } else x
  m.eng.foldl (fun m x =>
    Mach.freeSlots (m.setEngine x.1 { m.engine x.1 with jobs := (m.engine x.1).jobs.map put }) x.1) m

/-- DELETE of block k (R185): events and mailboxes unbound, locks freed, contexts released, then FREE when its jobs are done. -/
def Mach.deleteBlock (m : Mach) (k : Nat) : Mach :=
  let evs := m.sch.events.map fun e => if e.2.bound && e.2.tcb == k then (e.1, { e.2 with bound := false }) else e
  let bxs := m.mbx.boxes.map fun b => if b.2.bound && b.2.tcb == k then (b.1, { b.2 with bound := false }) else b
  let t := m.thr k
  let w : Who := { ring := t.ring, slice := t.slice, tcb := k, dbg := false }
  let lks := m.mbx.locks.map fun l => if l.2.owner = w.ident then (l.1, { l.2 with owner := 0 }) else l
  let hds := m.sch.held.filter fun h => h != HeldRaise.ready k
  let m1 := { m with sch := { m.sch with events := evs, held := hds }, mbx := { m.mbx with boxes := bxs, locks := lks } }
  let m2 := (m1.ctxsOf k).foldl Mach.closeCtx m1
  let m3 := m2.modThr k fun t => { t with state := .stopped, deleting := true, err := 0, waitKind := .none }
  (m3.acceptFor k).reap k

/-! ## Ending scans (R502, R503) -/

/-- Buffers of a spikelet in work. -/
def Spk.bufs (s : Spk) : List Nat := s.dbuf :: (s.inb ++ s.cls ++ s.outb)

/-! ## Order among commands (R45, R267, R271, R273) -/

/-- Acceptance number a precedes b (R45). -/
def asnBefore (a b : Nat) : Bool := let d := (b + 2 ^ 32 - a % 2 ^ 32) % 2 ^ 32; d != 0 && decide (d < 2 ^ 31)

/-- Namespace n of a slice that is LIVE. -/
def Mach.nsOf (m : Mach) (s n : Nat) : Option NsDesc :=
  if (m.slice s).state = .live then (m.slice s).desc.ns[n]? else none
/-- Is it a fine namespace? -/
def NsDesc.fine (d : NsDesc) : Bool := d.kind == 2
/-- Is namespace n of slice s fine? -/
def Mach.isFine (m : Mach) (s n : Nat) : Bool := ((m.slice s).desc.ns[n]?).any NsDesc.fine

/-- Blocks that one map entry covers. -/
def unitBlocks (fine : Bool) : Nat := if fine then 1 else 256

/-- Is it a command with a write entry: WRITE or TRIM? -/
def writes (opc : Nat) : Bool := opc == 0x03 || opc == 0x05

/-- First grain (or fine block) of a command, and how many it touches. -/
def Cmd.grains (c : Cmd) (fine : Bool) : Nat × Nat :=
  let a := c.ent.lba / unitBlocks fine
  if c.ent.nblk = 0 then (a, 0) else (a, (c.ent.lba + c.ent.nblk - 1) / unitBlocks fine + 1 - a)

/-- Is it a command with an overlap entry (R264, R270)? -/
def ranged (opc : Nat) : Bool := writes opc || opc == 0x02 || opc == 0x06 || opc == 0x07

/-- Do two commands overlap (R271)? -/
def Cmd.overlaps (a b : Cmd) : Bool :=
  ranged a.ent.opc && ranged b.ent.opc && (writes a.ent.opc || writes b.ent.opc) && a.owner == b.owner && a.ent.nsid == b.ent.nsid &&
    decide (a.ent.lba < b.ent.lba + b.ent.nblk) && decide (b.ent.lba < a.ent.lba + a.ent.nblk)

/-- Grains (or fine blocks) that a command touches. -/
def Mach.grainCount (m : Mach) (c : Cmd) : Nat := (c.grains (m.isFine (c.owner.getD 0) c.ent.nsid)).2

/-- May a command start: the order of R267, no activation that drains (R282), no entry past its quiet window (R284)? -/
def Mach.mayStart (m : Mach) (tag : Nat) (c : Cmd) : Bool :=
  let earlier := m.hq.cmds.filter fun e => e.2.qp == c.qp && asnBefore e.2.asn c.asn
  let drain := m.fwa.act.any fun a => a.tag != tag
  (if c.ent.ord then earlier.isEmpty else earlier.all fun e => !e.2.ent.ord) && !drain &&
    (match m.hq.entry with | some e => !e.shut m.tb || e.tag == tag | none => true)

/-- Has an accepted command not taken its overlap entry yet (R69, R270)? -/
def Mach.unplaced (m : Mach) (c : Cmd) : Bool :=
  ranged c.ent.opc && c.phase == .waiting && !c.started && !m.hq.ovls.any fun o => o.asn == c.asn

/-- The command that a row may begin or carry on: one of these opcodes, its data in, started or free to start. -/
def Mach.ready? (m : Mach) (tag : Nat) (opc : Nat) : Option Cmd :=
  match m.cmd? tag with
  | none => none
  | some c =>
    let phase := match c.phase with
      | .waiting | .dataReady | .running => true
      | _ => false
    if c.ent.opc == opc && phase && !m.unplaced c && (c.verdict.isNone || writes opc) && c.stopReq.isNone && (c.started || m.mayStart tag c) then some c else none

/-- Send bytes of a command to HADDR + off in DWR packets (R238, R269). -/
def Mach.sendData (m : Mach) (tag : Nat) (c : Cmd) (off : Nat) (l : List Byte) : Mach :=
  (List.range (ceilDiv l.length 4096)).foldl (fun m i =>
    let part := (l.drop (4096 * i)).take 4096
    m.send { ptype := 3, len := part.length, tag := tag, procid := c.ent.procid, word1 := w64 (c.ent.haddr + off + 4096 * i), data := part,
             cqe := none, asn := some c.asn }) m

/-- Is an earlier overlapping command still outstanding (R273)? -/
def Mach.behind (m : Mach) (c : Cmd) : Bool := m.hq.cmds.any fun e => asnBefore e.2.asn c.asn && e.2.overlaps c

/-- Has every filter thread of a scan left its core (R502)? -/
def Mach.scanQuiet (m : Mach) (s : Scan) : Bool := !(s.threads.any fun k => (m.thr k).state == .running)

/-- What a scan held goes back: threads deleted, buffers and digest context freed (R502). -/
def Mach.scanFree (m : Mach) (tag : Nat) : Mach :=
  match tget? m.scans tag with
  | none => m
  | some s =>
    let m1 := s.threads.foldl (fun m k => (m.unready k).deleteBlock k) m
    let m2 := (m1.releaseAll (s.spks.flatMap fun e => e.2.bufs)).releaseAll (s.grains.flatMap (·.2))
    let m3 := match s.ctx with
      | none => m2
      | some h => m2.closeCtx h
    { m3 with scans := tdel m3.scans tag }

/-- Has a grain of a write landed, or, for a ZERO grain, is its record durable (R319)? -/
def Mach.grainSafe (m : Mach) (g : WGrain) : Bool := if g.kind = .zero then g.mapped && decide (g.jsn ≤ m.map.jsnDone) else g.landed

/-- The status and result with which a command can post its final completion now, if it can (R273, R275, R280, R319, R320). -/
def Mach.doneNow (m : Mach) (tag : Nat) (c : Cmd) : Option (Nat × Nat) :=
  if m.behind c then none
  else match c.ent.opc with
    | 0x02 => c.verdict
    | 0x04 =>
      let before := m.hq.cmds.any fun e => writes e.2.ent.opc && e.2.owner == c.owner && e.2.ent.nsid == c.ent.nsid && asnBefore e.2.asn c.asn
      if c.count ≤ m.map.jsnDone && !before then c.verdict else none
    | 0x06 | 0x07 | 0x09 =>
      match tget? m.scans tag with
      | some s => if m.scanQuiet s then c.verdict else none
      | none => c.verdict
    | 0x03 | 0x05 =>
      let own := m.map.work.filter fun g => g.asn == c.asn
      let all := c.count == m.grainCount c
      let deps := own.all fun g => m.map.work.all fun h =>
        !(h.slice == g.slice && h.ns == g.ns && h.grain == g.grain && asnBefore h.asn g.asn) || m.grainSafe h
      if c.started && (c.stopReq.isSome || all) && own.all m.grainSafe && deps then
        match c.stopReq with
        | some st => if all || st != 0x0200 then some (c.verdict.getD (0, 0)) else some (st, c.count)
        | none => some (c.verdict.getD (0, 0))
      else none
    | _ => none

/-- The write entry of a write is returned once every grain of it has made its map update (R270, R318). Its grains are forgotten, a ZERO
grain once its record is durable. -/
def Mach.returnWrite (m : Mach) (asn : Nat) : Mach :=
  let open_ := m.hq.cmds.any fun e => e.2.asn == asn && e.2.stopReq.isNone && e.2.count != m.grainCount e.2
  if open_ || m.map.work.any (fun g => g.asn == asn && !g.mapped) then m
  else
    let keep := fun (g : WGrain) => g.asn != asn || (g.kind == .zero && decide (m.map.jsnDone < g.jsn))
    let m1 := { m with map := { m.map with work := m.map.work.filter keep } }
    m1.dropOvl fun o => o.asn == asn && o.kind == .write

/-- Post every final completion that nothing holds back any more. -/
def Mach.settleFor : Nat → Mach → Mach
  | 0, m => m
  | n + 1, m =>
    match m.hq.cmds.findSome? fun e => (m.doneNow e.1 e.2).map fun r => (e.1, e.2.asn, r) with
    | none => m
    | some (tag, asn, st, rs) => Mach.settleFor n (((m.scanFree tag).finishAlone tag st rs).returnWrite asn)

/-- Post every final completion that nothing holds back any more. -/
def Mach.settle (m : Mach) : Mach := m.settleFor m.hq.cmds.length

/-- End a command with its final completion; those that waited behind it follow. -/
def Mach.finish (m : Mach) (tag status result : Nat) : Mach :=
  let asn := ((m.cmd? tag).map (·.asn)).getD 0
  let m1 := m.finishAlone tag status result
  (if (m.cmd? tag).isSome then m1.returnWrite asn else m1).settle

/-- A command's outcome is decided: it posts once nothing holds it back. -/
def Mach.decide_ (m : Mach) (tag status result : Nat) : Mach :=
  match m.cmd? tag with
  | none => m
  | some c => (m.setCmd tag { c with verdict := some (status, result) }).settle

/-- End a command with a status for which no rule states a RESULT. -/
def Mach.finishOpen (m : Mach) (tag status : Nat) : Mach := let r := m.openRs; r.2.finish tag status r.1

/-- Decide a command's outcome, of a status for which no rule states a RESULT. -/
def Mach.decideOpen (m : Mach) (tag status : Nat) : Mach := let r := m.openRs; r.2.decide_ tag status r.1

/-- A started SCAN, RUN or VERIFY-FIXITY is told to stop with a status; with no spikelet in work it stops at once (R503). -/
def Mach.scanStop (m : Mach) (tag status : Nat) : Mach :=
  match m.cmd? tag with
  | none => m
  | some c =>
    let m1 := m.setCmd tag { c with stopReq := some status }
    match tget? m.scans tag with
    | none => m1.finish tag status c.count
    | some s =>
      if s.spks.any (fun e => match e.2.state with | .running _ => true | _ => false) then m1
      else m1.decide_ tag status s.blocks

/-! ## Queue reset (R280) -/

/-- Is the opcode that of a command that works in stages: VERIFY-FIXITY, SCAN, RUN? -/
def staged (opc : Nat) : Bool := opc == 0x06 || opc == 0x07 || opc == 0x09

/-- Reset ends one accepted command (R280). A grain's landing begins when its image is formed. -/
def Mach.resetCmd (m : Mach) (tag : Nat) : Mach :=
  match m.cmd? tag with
  | none => m
  | some c =>
    let opc := c.ent.opc
    if !c.started then m.finishOpen tag 0x0200
    else if opc == 0x03 then (m.setCmd tag { c with stopReq := some 0x0200 }).settle
    else if staged opc then m.scanStop tag 0x0200
    else m

/-- A command whose entry disagrees with its complement ends with INTEGRITY-ALARM (R597, R598); what it has begun ends with it. -/
def Mach.failCmd (m : Mach) (tag : Nat) : Mach :=
  match m.cmd? tag with
  | none => m
  | some c =>
    let r := m.openRs
    if c.started && c.ent.opc == 0x03 then (r.2.setCmd tag { c with stopReq := some 0x0304, verdict := some (0x0304, r.1) }).settle
    else if c.started && staged c.ent.opc then m.scanStop tag 0x0304
    else m.finishOpen tag 0x0304

/-- What a row does with the command under a tag, where its entry agrees with its complement. -/
def Mach.sound (m : Mach) (tag : Nat) (f : Mach → Mach) : Mach :=
  if m.unsound (.command tag) then (m.meet (.command tag)).failCmd tag else f m

/-- Queue reset of one queue pair (R280): waiting entries are accepted without checks and end, accepted commands end as their
condition says. -/
def Mach.resetQueue (m : Mach) (q : Nat) : Mach :=
  let v := m.qp q
  let owner := if q = 0 then none else some v.slice
  let m1 := m.setQp q { v with sq := [], inReset := true }
  let tags := (m1.hq.cmds.filter fun e => e.2.qp == q).map (·.1)
  let m2 := tags.foldl Mach.resetCmd m1
  v.sq.foldl (fun m e => let (t, m') := m.acceptEnt q e owner false; m'.finishOpen t 0x0200) m2

/-! ## Limp mode (R577 to R579) -/

/-- The credit classes of limp mode (R579). -/
def limpCls (c : Nat) : Cls :=
  { held := if c = 0 then 10 else 0, hwm := if c = 0 then 10 else 0, ceil := if c < 3 then 768 else 0,
    floor := if c < 3 then 64 else 0, locked := true }

/-- The books of limp mode (R579): 8 buffers hold 64 thread control blocks, 2 hold queue pair 0. -/
def limpGrn (g : Grn) : Grn :=
  { g with
    bufs := (List.range 8).map (fun k => (k, sysBuf 0xC000)) ++ [(8, sysBuf 0x4000), (9, sysBuf 0x4000)]
    cls := (List.range 7).map fun c => (c, limpCls c)
    ledgers :=
      let l0 : Ledger := { Ledger.full 758 with held := 10, total := 768, hwm := 10, cpl := ~~~(ledgerWord 758 10) }
      [(0, l0), (1, Ledger.full 65536), (2, Ledger.full 64), (3, Ledger.full 0), (4, Ledger.full 64), (5, Ledger.full 0),
       (6, Ledger.full 0), (7, Ledger.full 0), (8, Ledger.full 0), (9, Ledger.full 0)] ++ g.ledgers.filter (fun e => 10 ≤ e.1)
    slq := [], tcbOf := [], held := [], handoffs := [] }

/-- Every outstanding command ends as a queue reset leaves it; work that the stopped units had in progress ends with it (R577). -/
def Mach.endAll (m : Mach) : Mach :=
  let qs := m.hq.qps.map (·.1)
  let m1 := qs.foldl Mach.resetQueue m
  let m2 := (m1.hq.cmds.map (·.1)).foldl (fun m t => m.finishOpen t 0x0200) m1
  let dies := m2.fch.dies.map fun d => (d.1, { d.2 with queue := [] })
  { m2 with scans := [], map := { m2.map with work := [] }, fch := { m2.fch with dies := dies, got := [] } }

/-- Is it an event of a hardware source? -/
def HeldRaise.isEv : HeldRaise → Bool
  | .ev _ => true
  | _ => false

/-- Enter limp mode while running (R577, R579). -/
def Mach.enterLimp (m : Mach) (cause : Nat) : Mach :=
  let m1 := (m.endAll).zero granaryBase (granaryBase + 0x3000000)
  let off : Core := { thr := none, halted := false, off := true, asking := false, since := 0 }
  let evs := m1.sch.events.map fun e => (e.1, { e.2 with bound := false })
  let bxs := m1.mbx.boxes.map fun b => (b.1, { b.2 with bound := false })
  let cores := (List.range 72).map fun c => (c, if c = 64 then Core.reset else off)
  let sch : Sch := { m1.sch with thrs := [], cores := cores,
                                  events := evs, ready := [], held := m1.sch.held.filter HeldRaise.isEv, pool := 128 }
  let q0 : Qp := { Qp.reset with enable := true, bufs := [8, 9] }
  let m2 : Mach := { m1 with
    sch := sch
    mbx := { m1.mbx with boxes := bxs }
    grn := limpGrn m1.grn
    hq := { m1.hq with qps := [(0, q0)], ovls := [], held := [], aborts := [], entry := none, act := false, inReset := false,
                       ready := true }
    eng := (m1.eng.map fun (e : Nat × Eng) => (e.1, { e.2 with jobs := [] }))
    dgs := { m1.dgs with ctxs := [] }
    fwa := { m1.fwa with limp := true, limpCause := cause, trial := false, act := none }
    lnk := if m1.lnk.state = .active then { m1.lnk with state := .recovery } else m1.lnk }
  (m2.note 2 0).raise 775

end Sys2Proof.Machine
end

