-- ==== Sys2Proof/Machine/Dram.lean ====
section
/-! DEFINITION. Errors of memory: the counts and the chaff table (R526 to R529), stopping a thread by command (R183), and what
becomes of a DRAM rank that fails: retirement, migration, lost ranges and reduced-DRAM mode (R549 to R555). -/

namespace Sys2Proof.Machine

/-! ## Error counts and the chaff table -/

def Mach.eccCnt (m : Mach) (c : Nat) : EccCnt := tget EccCnt.reset m.ecc.cnt c
def Mach.setEccCnt (m : Mach) (c : Nat) (v : EccCnt) : Mach := { m with ecc := { m.ecc with cnt := tset m.ecc.cnt c v } }

/-- Log a corrected word in the chaff table (R529). -/
def Mach.chaffLog (m : Mach) (cls : Nat) (lanes : BitVec 8) (loc : BitVec 40) : Mach :=
  match m.ecc.chaff.find? fun e => e.2.cls == cls && e.2.loc == loc with
  | some (i, e) =>
    { m with ecc := { m.ecc with chaff := tset m.ecc.chaff i { e with lanes := e.lanes ||| lanes, count := sat 65535 (e.count + 1) } } }
  | none =>
    let i := nthFree 0 0 (m.ecc.chaff.map (·.1))
    if i < 256 then
      let e : Chaff := { cls := cls, lanes := lanes, loc := loc, count := 1, first := BitVec.ofNat 48 m.tb }
      Mach.raise { m with ecc := { m.ecc with chaff := tset m.ecc.chaff i e } } 680
    else
      let m1 := { m with ecc := { m.ecc with ovf := sat (2 ^ 32 - 1) (m.ecc.ovf + 1), ovfSeen := true } }
      if m.ecc.ovfSeen then m1 else m1.raise 681

/-- A corrected word: counted in its class and logged (R526). -/
def Mach.eccCorr (m : Mach) (cls loc : Nat) (lanes : BitVec 8) : Mach :=
  if lanes = 0 then m
  else
    let v := m.eccCnt cls
    (m.setEccCnt cls { v with corr := sat (2 ^ 32 - 1) (v.corr + 1) }).chaffLog cls lanes (BitVec.ofNat 40 loc)

/-- An uncorrectable or poisoned word: counted in its class, and event 672 + class (R527, R528). -/
def Mach.eccBad (m : Mach) (cls : Nat) (poison : Bool) : Mach :=
  let v := m.eccCnt cls
  let v1 := if poison then { v with poison := sat 65535 (v.poison + 1) } else { v with uncorr := sat 65535 (v.uncorr + 1) }
  (m.setEccCnt cls v1).raise (672 + cls)

/-! ## Stopping a thread by command (R183) -/

/-- The effect of STOP on block k, in whatever state it is. -/
def Mach.stopBlock (m : Mach) (k : Nat) : Mach :=
  let t := m.thr k
  match t.state with
  | .ready => (m.unready k).stopQuiet k
  | .waiting =>
    if t.waitKind = .waitwork ∨ t.waitKind = .sleep then m.stopQuiet k else m.setThr k { t with stopPend := true }
  | .running => m.setThr k { t with stopPend := true }
  | _ => m

/-! ## Ranks -/

/-- The rank that answers for an address of range q (R537, R551): during migration the spare for regions redirected. -/
def Mach.server (m : Mach) (q a : Nat) : Option Nat :=
  if m.drc.lost = some q then none
  else
    let region := (a - dramBase - q * rangeSize) / 0x100000
    match (List.range 5).find? fun r => (m.rank r).serves == some q with
    | none => none
    | some r => if m.drc.migrating = some r ∧ region < m.drc.migpos then some 4 else some r

/-- Units of program memory that remain when range p is lost: the 256 lowest of the ranges still served (R555). -/
def unitsLeft (p : Nat) : List Nat := ((List.range 512).filter fun u => u / 128 != p).take 256

/-- First address of a program-memory unit (R292). -/
def unitBase (u : Nat) : Nat := dramBase + (u / 128) * rangeSize + 0x40000000 + (u % 128) * 0x1000000

/-- Units of a slice. -/
def Desc.units (d : Desc) : List Nat := (List.range d.pmcnt).map (· + d.pmfirst)

/-- Withdraw program memory when range p is lost (R294, R555). -/
def Mach.withdraw (m : Mach) (p : Nat) : Mach :=
  let left := unitsLeft p
  let gone := (List.range 512).filter fun u => !left.contains u
  let hit := (m.slc.slices.filter fun e => e.2.state != .free && e.2.desc.units.any gone.contains).map (·.1)
  let ks := (m.sch.thrs.filter fun e => e.2.ring == .r2 && hit.contains e.2.slice).map (·.1)
  let m1 := ks.foldl Mach.stopBlock m
  let live := gone.filter fun u => u / 128 != p && hit.any fun s => (m.slice s).desc.units.contains u
  let m2 := live.foldl (fun m u => m.zero (unitBase u) (unitBase u + 0x1000000)) m1
  let inGone := fun (a : Nat) => gone.any fun u => unitBase u ≤ a && a < unitBase u + 0x1000000
  { m2 with slc := { m2.slc with withdrawn := gone, progs := m2.slc.progs.filter fun e => !inGone e.2.base } }

/-- Range p is lost (R553). -/
def Mach.loseRange (m : Mach) (p : Nat) : Mach :=
  match m.drc.lost with
  | none => (Mach.withdraw { m with drc := { m.drc with lost := some p, mode := 2 } } p).raise 743
  | some l =>
    if l = p ∨ m.drc.lost2 then m
    else (Mach.raise { m with drc := { m.drc with lost2 := true } } 747).enterLimp 3

/-- A rank takes RETIRED and serves nothing; the firmware records it (R550). -/
def Mach.setRetired (m : Mach) (r : Nat) : Mach :=
  let m1 := m.setRank r { m.rank r with state := .retired, serves := none }
  { m1 with fwa := { m1.fwa with retired := if m1.fwa.retired.contains r then m1.fwa.retired else m1.fwa.retired ++ [r] } }

/-- Retire rank r (R550 to R553). -/
def Mach.retire (m : Mach) (r : Nat) : Mach :=
  let v := m.rank r
  match v.state with
  | .off => (m.setRetired r).raise (736 + r)
  | .standby => (m.setRetired r).raise (736 + r)
  | .copying =>
    match m.drc.migrating with
    | none => (m.setRetired r).raise (736 + r)
    | some q =>
      let p := (m.rank q).serves.getD 0
      let m1 := (m.setRetired q).setRetired r
      (Mach.raise { m1 with drc := { m1.drc with migrating := none, spared := none } } (736 + r)).loseRange p
  | .service =>
    match v.serves with
    | none => m
    | some p =>
      if r < 4 ∧ (m.rank 4).state = .standby ∧ m.drc.migrating = none then
        let m1 := (m.setRank r { v with state := .migrating }).setRank 4 { m.rank 4 with state := .copying }
        let m2 := { m1 with drc := { m1.drc with migrating := some r, migpos := 0 }
                            fwa := { m1.fwa with retired := m1.fwa.retired ++ [r] } }
        (m2.raise (736 + r)).raise 741
      else ((m.setRetired r).raise (736 + r)).loseRange p
  | _ => m

/-- Count one burst of a rank (R556). -/
def Mach.burst (m : Mach) (q a : Nat) : Mach :=
  match m.server q a with
  | none => m
  | some r => m.setRank r { m.rank r with bursts := sat (2 ^ 64 - 1) ((m.rank r).bursts + 1) }

/-- Can range q answer for address a now? 0 yes, 1 it has no rank, 2 the access holds (R547, R549, R553). -/
def Mach.rangeReady (m : Mach) (q a : Nat) : Nat :=
  match m.server q a with
  | none => 1
  | some r =>
    match (m.rank r).state with
    | .service | .migrating | .copying => 0
    | .filling => if (a - dramBase - q * rangeSize) / 0x100000 < (m.rank r).filled then 0 else 2
    | .off | .training => 2
    | _ => 1

end Sys2Proof.Machine
end

