-- ==== Sys2Proof/Machine/Cache.lean ====
section
/-! DEFINITION. Reading and writing memory: the byte-lane code on a word, the firmware array's sense path, the caches with their
domains, masks, locks and eviction buffers, and range operations (chapters 15 to 17). -/

namespace Sys2Proof.Machine

/-! ## Words -/

/-- What decoding eight stored bytes gives (R524, R525): the bytes with the lanes that were corrected, or a bad or poisoned word. -/
inductive WordOut where
  | ok (bytes : List Byte) (lanes : BitVec 8)
  | bad (lanes : BitVec 8)
  | poison
deriving DecidableEq, Repr

/-- What a read of a word gives its requester. -/
inductive WordRead where
  | ok (bytes : List Byte)
  /-- uncorrectable or poisoned, with the detail of R108 -/
  | uncorr (detail : Nat)
  /-- a bus error, with the detail of R108 -/
  | bus (detail : Nat)
  /-- the access holds -/
  | wait
deriving DecidableEq, Repr

/-- Lanes of a word for which a test holds. -/
def laneMask (l : List Bool) : BitVec 8 :=
  BitVec.ofNat 8 (l.foldr (fun b n => 2 * n + (if b then 1 else 0)) 0)

/-- Decode stored bytes of one word; `er` says that an all-ones byte is an erased one (R560). -/
def decodeCells (er : Bool) (l : List (Byte × BitVec 5)) : WordOut :=
  if l.all fun x => x.1 = 0 ∧ x.2 = poisonChk then .poison
  else
    let outs := l.map fun x => if er && x.1 == 0xFF && x.2 == 0b11111 then LaneOut.clean 0xFF else decodeByte x.1 x.2
    let bads := outs.map fun o => match o with | .bad => true | _ => false
    if bads.any id then .bad (laneMask bads)
    else .ok (outs.map fun o => match o with | .clean d => d | .corrected d => d | .bad => 0)
             (laneMask (outs.map fun o => match o with | .corrected _ => true | _ => false))

/-- Decode a word's stored bytes. `plain` says that no check bits are listed there: every byte then stands as it was written. -/
def decodeStored (er plain : Bool) (l : List (Byte × BitVec 5)) : WordOut := if plain then .ok (l.map (·.1)) 0 else decodeCells er l

/-- The stored cells of the word at an 8-byte aligned address. -/
def Mach.wordCells (m : Mach) (a : Nat) : List (Byte × BitVec 5) := (List.range 8).map fun i => (m.byte (a + i), m.check (a + i))

/-- Decode the word at an address as it stands, with no effect. -/
def Mach.peekWord (m : Mach) (a : Nat) : WordOut :=
  match regionOf a with
  | .rom => .ok (m.rawBytes a 8) 0
  | .fwa => decodeStored true m.mem.chk.isEmpty (m.wordCells a)
  | .dram _ =>
    if (tget? m.mem.tags (a / 8)).any (· != dramTag a) then .bad 0xFF else decodeStored false m.mem.chk.isEmpty (m.wordCells a)
  | _ => decodeStored false m.mem.chk.isEmpty (m.wordCells a)

/-! ## The firmware array's reads (R561, R562, R566) -/

/-- Bank of an array offset: 0 A, 1 B. -/
def bankOf (off : Nat) : Nat := off / 0x1000000
/-- Sector of an array offset. -/
def sectorOf (off : Nat) : Nat := off / 65536

/-- Read a word of the array at offset `off`. -/
def Mach.arrayWord (m : Mach) (a : Nat) : Mach × WordRead :=
  let off := a - fwaBase
  let busy : Bool := match m.fwa.op with
    | some o => bankOf o.off == bankOf off
    | none => false
  let susp : Bool := match m.fwa.susp with
    | some o => o.kind == .erase && sectorOf o.off == sectorOf off
    | none => false
  if susp then
    (Mach.raise { m with fwa := { m.fwa with suspread := sat 65535 (m.fwa.suspread + 1) } } 771, .bus 5)
  else if busy then (m, .wait)
  else if m.fwa.sense < senseNeed m.pwr.level (hottest m.pwr.tempQ) then
    ({ m with free := m.free + 1 }, .ok ((List.range 8).map fun i => Config.shortSense m.free (off + i)))
  else
    match decodeStored true m.mem.chk.isEmpty (m.wordCells a) with
    | .ok b l => (m.eccCorr 2 a l, .ok b)
    | .bad _ => (m.eccBad 2 false, .uncorr 3)
    | .poison => (m.eccBad 2 true, .uncorr 3)

/-- Read the word at an 8-byte aligned address from memory, past every cache (R511, R524, R527, R539, R550). -/
def Mach.readWord (m : Mach) (a : Nat) : Mach × WordRead :=
  match regionOf a with
  | .rom => (m, .ok (m.rawBytes a 8))
  | .fwa => m.arrayWord a
  | .granary =>
    if m.fwa.limp ∧ granaryBase + 0x300000 ≤ a then (m, .bus 1)
    else match decodeStored false m.mem.chk.isEmpty (m.wordCells a) with
      | .ok b l => (m.eccCorr 0 a l, .ok b)
      | .bad _ => (m.eccBad 0 false, .uncorr 1)
      | .poison => (m.eccBad 0 true, .uncorr 1)
  | .dram q =>
    match m.rangeReady q a with
    | 1 => (m, .bus 1)
    | 2 => (m, .wait)
    | _ =>
      let r := (m.server q a).getD 0
      if (tget? m.mem.tags (a / 8)).any (· != dramTag a) then
        let v := m.rank r
        (((m.setRank r { v with tagmis := sat 65535 (v.tagmis + 1) }).eccBad 1 false).retire r, .uncorr 2)
      else match decodeStored false m.mem.chk.isEmpty (m.wordCells a) with
        | .ok b l => (m.eccCorr 1 a l, .ok b)
        | .bad _ =>
          let v := m.rank r
          (((m.setRank r { v with uncorr := sat 65535 (v.uncorr + 1) }).eccBad 1 false).retire r, .uncorr 2)
        | .poison => (m.eccBad 1 true, .uncorr 2)
  | .control => (m, .bus 2)
  | .hole => (m, .bus 1)

/-- Can a store to an address proceed? -/
def Mach.storeReady (m : Mach) (a : Nat) : WordRead :=
  match regionOf a with
  | .granary => if m.fwa.limp ∧ granaryBase + 0x300000 ≤ a then .bus 1 else .ok []
  | .dram q => match m.rangeReady q a with | 0 => .ok [] | 1 => .bus 1 | _ => .wait
  | .rom | .fwa => .bus 3
  | .control => .bus 2
  | .hole => .bus 1

/-- Store bytes in memory, past every cache: each byte with its check bits, each word with its tag (R523, R538). -/
def Mach.storeMem (m : Mach) (a : Nat) (l : List Byte) : Mach :=
  let m1 := m.putBytes a l
  match regionOf a with
  | .dram q => m1.burst q a
  | _ => m1

/-- Write a word as poison (R525). -/
def Mach.poisonWord (m : Mach) (a : Nat) : Mach :=
  let m1 := (List.range 8).foldl (fun m i => m.putRaw (a + i) 0 poisonChk) m
  { m1 with mem := { m1.mem with tags := tdel m1.mem.tags (a / 8) } }

/-! ## Caches -/

/-- Sets and ways of a cache (R508). -/
structure Geo where
  sets : Nat
  ways : Nat
deriving DecidableEq, Repr

/-- The line of a number, if the cache holds it. -/
def Cache.find (c : Cache) (base : Nat) : Option Line := c.lines.find? fun l => l.base == base
/-- The line of a number in the eviction buffer. -/
def Cache.buffered (c : Cache) (base : Nat) : Option Line := c.evict.find? fun l => l.base == base
/-- Drop the line of a number. -/
def Cache.inval (c : Cache) (base : Nat) : Cache := { c with lines := c.lines.filter fun l => l.base != base }
/-- Put back a line that the cache holds, as the most recently used. -/
def Cache.put (c : Cache) (l : Line) : Cache :=
  { c with lines := c.lines.map (fun x => if x.base = l.base then { l with used := c.clock } else x), clock := c.clock + 1 }

/-- The way that a new line takes among the allowed ones: the lowest empty, else the least recently used (R515); with the victim. -/
def Cache.choose (c : Cache) (g : Geo) (base : Nat) (allowed : List Nat) : Option (Nat × Option Line) :=
  let set := c.lines.filter fun l => l.base % g.sets == base % g.sets
  match allowed.find? fun w => !set.any fun l => l.way == w with
  | some w => some (w, none)
  | none =>
    let cand := set.filter fun l => allowed.contains l.way
    match cand with
    | [] => none
    | x :: t =>
      let v := t.foldl (fun a l => if l.used < a.used then l else a) x
      some (v.way, some v)

/-- Put a new line in a way, in place of its victim. -/
def Cache.insert (c : Cache) (l : Line) (victim : Option Line) : Cache :=
  let rest := match victim with
    | some v => c.lines.filter fun x => x.base != v.base
    | none => c.lines
  { c with lines := rest ++ [{ l with used := c.clock }], clock := c.clock + 1 }

/-- Byte o of a line. -/
def Line.byte (l : Line) (o : Nat) : Byte := l.data.extractLsb' (8 * o) 8
/-- Stored cells of word w of a line. -/
def Line.cells (l : Line) (w : Nat) : List (Byte × BitVec 5) :=
  (List.range 8).map fun i => let o := 8 * w + i; (l.byte o, (tget? l.chk o).getD (checkOf (l.byte o)))
/-- Overwrite byte o of a line. -/
def Line.setByte (l : Line) (o : Nat) (b : Byte) : Line :=
  let hole : BitVec 512 := ~~~((0xFF : BitVec 512) <<< (8 * o))
  { l with data := (l.data &&& hole) ||| (b.setWidth 512 <<< (8 * o)), chk := tdel l.chk o }
/-- Overwrite bytes from o on. -/
def Line.setBytes (l : Line) : Nat → List Byte → Line
  | _, [] => l
  | o, b :: t => Line.setBytes (l.setByte o b) (o + 1) t

/-- A line made of 64 bytes. -/
def Line.make (base way : Nat) (dirty : Bool) (b : List Byte) : Line :=
  { base := base, way := way, dirty := dirty, data := BitVec.ofNat 512 (leNat b), chk := [], used := 0 }

/-- A core is a tiller below 64 and a culm from 64 on (R91). -/
def isTiller (c : Nat) : Bool := c < 64
def l1iGeo (c : Nat) : Geo := if isTiller c then ⟨256, 2⟩ else ⟨256, 4⟩
def l1dGeo (c : Nat) : Geo := if isTiller c then ⟨128, 4⟩ else ⟨128, 8⟩
/-- The shared caches, named 0 to 7 for the sheaves and 8 for the map cache. -/
def sharedGeo (x : Nat) : Geo := if x < 8 then ⟨1024, 16⟩ else ⟨4096, 16⟩
/-- Lines of an eviction buffer (R519). -/
def evictSize (x : Nat) : Nat := if x < 8 then 16 else 32
/-- The shared cache of a core's domain (R510). -/
def domainOf (c : Nat) : Nat := if isTiller c then c / 8 else 8
/-- Cores of a domain. -/
def coresOf (x : Nat) : List Nat := if x < 8 then (List.range 8).map (· + 8 * x) else (List.range 8).map (· + 64)
/-- The requester that a core is in its shared cache (R514). -/
def requesterOf (c : Nat) : Nat := if isTiller c then c % 8 else c - 64

def Mach.l1i (m : Mach) (c : Nat) : Cache := tget Cache.reset m.cch.l1i c
def Mach.setL1i (m : Mach) (c : Nat) (v : Cache) : Mach := { m with cch := { m.cch with l1i := tset m.cch.l1i c v } }
def Mach.l1d (m : Mach) (c : Nat) : Cache := tget Cache.reset m.cch.l1d c
def Mach.setL1d (m : Mach) (c : Nat) (v : Cache) : Mach := { m with cch := { m.cch with l1d := tset m.cch.l1d c v } }
def Mach.shared (m : Mach) (x : Nat) : Cache := if x < 8 then tget Cache.reset m.cch.sheaf x else m.cch.mapc
def Mach.setShared (m : Mach) (x : Nat) (v : Cache) : Mach :=
  if x < 8 then { m with cch := { m.cch with sheaf := tset m.cch.sheaf x v } } else { m with cch := { m.cch with mapc := v } }

/-- Ways that requester r may allocate in: its mask sets them and they are not locked (R515, R516). -/
def Cache.allowed (c : Cache) (r : Nat) : List Nat :=
  (List.range 16).filter fun w => (tget 0xFFFF c.masks r).getLsbD w && !c.lock.getLsbD w

/-- Location of a word in a shared cache, for the chaff table (R526). -/
def sharedLoc (x : Nat) (l : Line) (w : Nat) : Nat :=
  (if x < 8 then x * 2 ^ 32 else 0) + ((l.base % (sharedGeo x).sets) * 16 + l.way) * 8 + w
/-- Error class of a shared cache. -/
def sharedCls (x : Nat) : Nat := if x < 8 then 4 else 5
/-- Location of a word in an L1 cache. -/
def l1Loc (c : Nat) (instr : Bool) (l : Line) (w : Nat) : Nat :=
  let g := if instr then l1iGeo c else l1dGeo c
  c * 2 ^ 32 + (if instr then 0 else 2 ^ 31) + ((l.base % g.sets) * g.ways + l.way) * 8 + w

/-- Write back a line of shared cache x: corrected words with true data, uncorrectable ones as poison (R519, R527). -/
def Mach.landLine (m : Mach) (x : Nat) (l : Line) : Mach :=
  let one := fun (m : Mach) (w : Nat) =>
    let a := 64 * l.base + 8 * w
    match decodeStored false l.chk.isEmpty (l.cells w) with
    | .ok b ln => (m.eccCorr (sharedCls x) (sharedLoc x l w) ln).putBytes a b
    | _ => (m.eccBad (sharedCls x) false).poisonWord a
  match m.storeReady (64 * l.base) with
  | .ok _ =>
    let m1 := (List.range 8).foldl one m
    match regionOf (64 * l.base) with
    | .dram q => m1.burst q (64 * l.base)
    | _ => m1
  | _ => m

/-- A dirty line leaves for the eviction buffer; a full buffer first lands its oldest line (R519). -/
def Mach.evictLine (m : Mach) (x : Nat) (l : Line) : Mach :=
  let c := m.shared x
  if c.evict.length < evictSize x then m.setShared x { c with evict := c.evict ++ [l] }
  else match c.evict with
    | [] => m.setShared x { c with evict := [l] }
    | o :: t => (m.landLine x o).setShared x { c with evict := t ++ [l] }

/-- Allocate a line in shared cache x for requester r, if a way qualifies (R515). -/
def Mach.fillShared (m : Mach) (x r : Nat) (l : Line) : Mach × Bool :=
  let c := m.shared x
  match c.choose (sharedGeo x) l.base (c.allowed r) with
  | none => (m, false)
  | some (w, v) =>
    let m1 := m.setShared x (c.insert { l with way := w } v)
    match v with
    | some o => if o.dirty then (m1.evictLine x o, true) else (m1, true)
    | none => (m1, true)

/-- Allocate a line in an L1 cache: in any way, and no line of it is dirty (R510, R515). -/
def fillL1 (c : Cache) (g : Geo) (l : Line) : Cache :=
  match (c.inval l.base).choose g l.base (List.range g.ways) with
  | none => c
  | some (w, v) => (c.inval l.base).insert { l with way := w, dirty := false } v

/-- Count a hit or a miss of a shared cache (R518). -/
def Mach.countShared (m : Mach) (x : Nat) (hit : Bool) : Mach :=
  let c := m.shared x
  m.setShared x (if hit then { c with hit := sat (2 ^ 32 - 1) (c.hit + 1) } else { c with miss := sat (2 ^ 32 - 1) (c.miss + 1) })

/-- Note a miss of thread k for the prefetcher (R517). -/
def Mach.noteMiss (m : Mach) (k base : Nat) : Mach :=
  let r := tget MissRun.reset m.cch.runs k
  let n := if r.count ≠ 0 ∧ base = r.last + 1 ∧ base % 64 ≠ 0 then r.count + 1 else 1
  { m with cch := { m.cch with runs := tset m.cch.runs k { last := base, count := n } } }

/-- The 64 bytes of a line in memory, when every word of it reads well. -/
def Mach.peekLine (m : Mach) (base : Nat) : Option (List Byte) :=
  let ws := (List.range 8).map fun w => m.peekWord (64 * base + 8 * w)
  if ws.all fun o => match o with | .ok _ _ => true | _ => false
  then some (ws.flatMap fun o => match o with | .ok b _ => b | _ => []) else none

/-- Read the word at `a` for a miss: the whole line when it reads well, else only the word (R515). Gives the line's bytes. -/
def Mach.missRead (m : Mach) (a : Nat) : Mach × WordRead × Option (List Byte) :=
  let base := a / 64
  let m0 := match regionOf a with
    | .dram q => m.burst q a
    | _ => m
  match m0.peekLine base with
  | none => let (m1, r) := m0.readWord a; (m1, r, none)
  | some _ =>
    let step := fun (s : Mach × Option (List Byte)) (w : Nat) =>
      let (m1, r) := s.1.readWord (64 * base + 8 * w)
      match r, s.2 with
      | .ok b, some l => (m1, some (l ++ b))
      | _, _ => (m1, none)
    let (m1, l) := (List.range 8).foldl step (m0, some [])
    match l with
    | some b => (m1, .ok ((b.drop (a % 64)).take 8), some b)
    | none => let (m2, r) := m0.readWord a; (m2, r, none)

/-- Does a core go past the shared cache of its domain? Culm 0 does in limp mode (R534). -/
def Mach.bypass (m : Mach) (x : Nat) : Bool := m.fwa.limp && x == 8

/-- Read the word at `a` through shared cache x for requester r and thread k. Gives the line for an L1 fill. -/
def Mach.sharedWord (m : Mach) (x r k a : Nat) : Mach × WordRead × Option Line :=
  let base := a / 64
  let w := (a % 64) / 8
  let miss := fun (m : Mach) =>
    let m1 := (m.countShared x false)
    let m2 := if x < 8 then m1.noteMiss k base else m1
    let (m3, rd, l) := m2.missRead a
    match l with
    | none => (m3, rd, none)
    | some b => ((m3.fillShared x r (Line.make base 0 false b)).1, rd, some (Line.make base 0 false b))
  if m.bypass x then
    let (m1, rd, l) := m.missRead a
    (m1, rd, l.map (Line.make base 0 false))
  else
  match (m.shared x).find base with
  | some l =>
    match decodeStored false l.chk.isEmpty (l.cells w) with
    | .ok b ln =>
      let m1 := ((m.setShared x ((m.shared x).put l)).countShared x true).eccCorr (sharedCls x) (sharedLoc x l w) ln
      (m1, .ok b, some l)
    | bad =>
      let ln := match bad with | .bad n => n | _ => 0xFF
      if l.dirty then
        let m1 := (m.setShared x ((m.shared x).inval base)).landLine x l
        (m1, .uncorr 4, none)
      else
        let m1 := (m.setShared x ((m.shared x).inval base)).eccCorr (sharedCls x) (sharedLoc x l w) ln
        miss (m1.raise (672 + sharedCls x))
  | none =>
    match (m.shared x).buffered base with
    | some l =>
      match decodeStored false l.chk.isEmpty (l.cells w) with
      | .ok b ln => (m.eccCorr (sharedCls x) (sharedLoc x l w) ln, .ok b, none)
      | _ => (m.eccBad (sharedCls x) false, .uncorr 4, none)
    | none => miss m

/-- Read the word at `a` through the L1 instruction or data cache of core c, for thread k (R510, R527). -/
def Mach.coreWord (m : Mach) (c : Nat) (instr : Bool) (k a : Nat) : Mach × WordRead :=
  let base := a / 64
  let w := (a % 64) / 8
  let l1 := if instr then m.l1i c else m.l1d c
  let set := fun (m : Mach) (v : Cache) => if instr then m.setL1i c v else m.setL1d c v
  let g := if instr then l1iGeo c else l1dGeo c
  let below := fun (m : Mach) =>
    let (m1, rd, l) := m.sharedWord (domainOf c) (requesterOf c) k a
    match rd, l with
    | .ok b, some ln => (set m1 (fillL1 (if instr then m1.l1i c else m1.l1d c) g ln), WordRead.ok b)
    | r, _ => (m1, r)
  match l1.find base with
  | some l =>
    match decodeStored false l.chk.isEmpty (l.cells w) with
    | .ok b ln => ((set m (l1.put l)).eccCorr 3 (l1Loc c instr l w) ln, .ok b)
    | bad =>
      let ln := match bad with | .bad n => n | _ => 0xFF
      below (((set m (l1.inval base)).eccCorr 3 (l1Loc c instr l w) ln).raise 675)
  | none => below m

/-- A store by core c lands in its domain: written through its own L1 data cache, the line dropped from every other L1 of the domain,
and merged into the shared cache, its eviction buffer, or memory (R510, R515, R519). -/
def Mach.coreStore (m : Mach) (c a : Nat) (b : List Byte) : Mach :=
  let base := a / 64
  let o := a % 64
  let x := domainOf c
  let m1 := (coresOf x).foldl (fun m d =>
    let m := m.setL1i d ((m.l1i d).inval base)
    if d = c then m.setL1d d { m.l1d d with lines := (m.l1d d).lines.map fun l => if l.base = base then l.setBytes o b else l }
    else m.setL1d d ((m.l1d d).inval base)) m
  if m1.bypass x then m1.storeMem a b
  else
  match (m1.shared x).find base with
  | some l => (m1.setShared x ((m1.shared x).put { l.setBytes o b with dirty := true })).countShared x true
  | none =>
    let sc := m1.shared x
    match sc.buffered base with
    | some _ => m1.setShared x { sc with evict := sc.evict.map fun l => if l.base = base then l.setBytes o b else l }
    | none =>
      let m2 := m1.countShared x false
      match m2.peekLine base with
      | none => m2.storeMem a b
      | some _ =>
        let (m3, _, l) := m2.missRead a
        match l with
        | none => m3.storeMem a b
        | some bs =>
          let (m4, kept) := m3.fillShared x (requesterOf c) ((Line.make base 0 true bs).setBytes o b)
          if kept then m4 else m4.storeMem a b

/-! ## Range operations (R158, R520, R521) -/

/-- Let a buffered line's write-back land (R521). -/
def Mach.landBuffered (m : Mach) (x base : Nat) : Mach :=
  let c := m.shared x
  match c.buffered base with
  | none => m
  | some l => (m.setShared x { c with evict := c.evict.filter fun y => y.base != base }).landLine x l

/-- CACHE.CLN.R on one line. -/
def Mach.cleanLine (m : Mach) (c base : Nat) : Mach :=
  let x := domainOf c
  let m1 := m.landBuffered x base
  match (m1.shared x).find base with
  | some l =>
    if l.dirty then (m1.setShared x { m1.shared x with lines := (m1.shared x).lines.map fun y =>
      if y.base = base then { y with dirty := false } else y }).landLine x l
    else m1
  | none => m1

/-- CACHE.INV.R on one line: dropped in the shared cache and in every L1 of the domain. -/
def Mach.invalLine (m : Mach) (c base : Nat) : Mach :=
  let x := domainOf c
  let m1 := m.landBuffered x base
  let m2 := (coresOf x).foldl (fun m d => (m.setL1i d ((m.l1i d).inval base)).setL1d d ((m.l1d d).inval base)) m1
  m2.setShared x ((m2.shared x).inval base)

/-! ## Accesses past the caches: engines, digests, transfers, debug (R511, R527) -/

/-- Read n words, ascending from word w, up to the first that fails. -/
def Mach.readWords : Nat → Nat → Mach → Mach × WordRead
  | 0, _, m => (m, .ok [])
  | n + 1, w, m =>
    match m.readWord (8 * w) with
    | (m1, .ok b) =>
      (match Mach.readWords n (w + 1) m1 with
       | (m2, .ok l) => (m2, .ok (b ++ l))
       | r => r)
    | r => r

/-- Read n bytes from an address past the caches; the first fault met ends the read. -/
def Mach.readBytes (m : Mach) (a n : Nat) : Mach × WordRead :=
  let m0 := match regionOf a with
    | .dram q => iter (fun m => m.burst q a) (ceilDiv (a % 128 + n) 128) m
    | _ => m
  match Mach.readWords (ceilDiv (a + n) 8 - a / 8) (a / 8) m0 with
  | (m1, .ok l) => (m1, .ok ((l.drop (a % 8)).take n))
  | r => r

end Sys2Proof.Machine
end

