-- ==== Sys2Proof/Machine/Access.lean ====
section
/-! DEFINITION. What a thread may reach: rings, windows, charged buffers and protected ranges (R97 to R103, R175), its loads and stores of
memory, its fetches, and memory-range operands (R637). -/

namespace Sys2Proof.Machine

/-- What an access needs of a window (R93). -/
inductive Need where
  | read | write | exec
deriving DecidableEq, Repr

/-- What an access of a thread ends in. -/
inductive Acc (α : Type) where
  | ok (v : α)
  /-- an exception: cause, detail, address (R108) -/
  | fault (cause detail : Nat) (xa : W64)
  /-- the access holds -/
  | wait
deriving DecidableEq, Repr

/-- Does a window grant a need? -/
def wnGrants (w : W64) : Need → Bool
  | .read => bit w 62
  | .write => bit w 61
  | .exec => bit w 60

/-- Does a valid window cover a page (R93)? Pages are numbered by address bits [39:12]. -/
def wnCovers (w : W64) (page : Nat) : Bool := bit w 63 && decide (fld w 27 0 ≤ page) && decide (page ≤ fld w 55 28)

/-- Windows of a thread. -/
def Thr.windows (t : Thr) : List W64 := (List.range 8).map fun i => tget 0 t.wn i

/-- Is a page inside the granary or DRAM? -/
def inStore (a : Nat) : Bool :=
  match regionOf a with
  | .granary | .dram _ => true
  | _ => false

/-- The WINDOW check of one byte of an access that is no control-space access: the detail of the failure (R99 to R103, R175, R436).
Buffers of the scheduler and of quarantine are out of every ring's reach. -/
def Mach.windowByte (m : Mach) (k : Nat) (need : Need) (a : Nat) : Option Nat :=
  let t := m.thr k
  let gr := regionOf a = .granary
  let o := (m.buf (bufAt a)).owner
  let closed := gr && (o == 0xC000 || o.extractLsb' 12 4 == 0xB)
  match t.ring with
  | .r0 => if closed then some 5 else none
  | .r1 =>
    if closed || !inStore a then some 5
    else if (List.range 4).any (fun i =>
      let f := tget FwProt.reset m.sys.fwprot i
      f.valid && decide (f.base.toNat ≤ a / 4096) && decide (a / 4096 ≤ f.limit.toNat)) then some 4
    else none
  | .r2 =>
    if closed || !inStore a then some 5
    else
      let ws := t.windows.filter fun w => wnCovers w (a / 4096)
      if ws.isEmpty then some 1
      else if !ws.any (fun w => wnGrants w need) then some 2
      else if gr && (m.buf (bufAt a)).charged != some t.slice then some 3
      else none

/-- The first byte of each 4 KiB page that [a, a + n) touches. -/
def pageStarts (a n : Nat) : List Nat :=
  if n = 0 then []
  else a :: ((List.range ((a + n - 1) / 4096 - a / 4096)).map fun i => (a / 4096 + i + 1) * 4096)

/-- The WINDOW check of a range, page by page in ascending order; control-space pages are judged by R104 or R637. -/
def Mach.windowRange (m : Mach) (k : Nat) (need : Need) (a n : Nat) : Option (Nat × Nat) :=
  (pageStarts a n).findSome? fun p =>
    if regionOf p = .control then none else (m.windowByte k need p).map fun d => (d, p)

/-- A word that was read, as an access outcome at address a. -/
def WordRead.toAcc (r : WordRead) (a : Nat) : Acc (List Byte) :=
  match r with
  | .ok b => .ok b
  | .uncorr d => .fault 6 d (w64 a)
  | .bus d => .fault 5 d (w64 a)
  | .wait => .wait

/-- Read n ≤ 8 bytes inside one word through the data cache of core c (R97 to R101). The address is mapped memory, aligned. -/
def Mach.loadMem (m : Mach) (c k a n : Nat) : Mach × Acc (List Byte) :=
  match m.windowByte k .read a with
  | some d => (m, .fault 3 d (w64 a))
  | none =>
    let (m1, r) := m.coreWord c false k (a / 8 * 8)
    match r with
    | .ok b => (m1, .ok ((b.drop (a % 8)).take n))
    | e => (m1, e.toAcc a)

/-- Store n ≤ 8 bytes inside one word through core c's domain. -/
def Mach.storeMemAs (m : Mach) (c k a : Nat) (b : List Byte) : Mach × Acc Unit :=
  match m.windowByte k .write a with
  | some d => (m, .fault 3 d (w64 a))
  | none =>
    match m.storeReady a with
    | .ok _ => (m.coreStore c a b, .ok ())
    | .bus d => (m, .fault 5 d (w64 a))
    | .uncorr d => (m, .fault 6 d (w64 a))
    | .wait => (m, .wait)

/-- Fetch the word at a thread's pc through its core's instruction cache (R109 step 1). -/
def Mach.fetch (m : Mach) (c k : Nat) : Mach × Acc Unit :=
  let a := pcAddr (m.thr k).pc
  if regionOf a = .control then (m, .fault 5 4 (w64 a))
  else
    match m.windowByte k .exec a with
    | some d => (m, .fault 3 d (w64 a))
    | none =>
      let (m1, r) := m.coreWord c true k (a / 8 * 8)
      match r with
      | .ok _ => (m1, .ok ())
      | e => (m1, match e.toAcc a with | .fault x d y => .fault x d y | .ok _ => .ok () | .wait => .wait)

/-- Judge the bytes of a memory-range operand after its WINDOW checks (R637): the first that is no memory. -/
def Mach.rangeBus (m : Mach) (write : Bool) (a n : Nat) : Option (Nat × Nat) :=
  (pageStarts a n).findSome? fun p =>
    match regionOf p with
    | .control => some (2, p)
    | .hole => some (1, p)
    | .rom | .fwa => if write then some (3, p) else none
    | .granary => if m.fwa.limp ∧ granaryBase + 0x300000 ≤ p then some (1, p) else none
    | .dram q => if m.rangeReady q p = 1 then some (1, p) else none

/-- Read a memory-range operand word by word after its WINDOW and bus judging (R109, R637), each word through `read`.
The address is 8-byte aligned or the range lies in one word. -/
def Mach.readRange (m : Mach) (read : Mach → Nat → Mach × WordRead) (k a n : Nat) : Mach × Acc (List Byte) :=
  match m.windowRange k .read a n with
  | some (d, p) => (m, .fault 3 d (w64 p))
  | none =>
    match m.rangeBus false a n with
    | some (d, p) => (m, .fault 5 d (w64 p))
    | none =>
      let first := a / 8
      let step := fun (s : Mach × Acc (List Byte)) (i : Nat) =>
        match s.2 with
        | .ok l =>
          let (m1, r) := read s.1 (8 * (first + i))
          match r with
          | .ok b => (m1, .ok (l ++ b))
          | e => (m1, e.toAcc (8 * (first + i)))
        | e => (s.1, e)
      let (m1, r) := (List.range (ceilDiv (a + n) 8 - first)).foldl step (m, .ok [])
      match r with
      | .ok l => (m1, .ok ((l.drop (a % 8)).take n))
      | e => (m1, e)

/-- Read a memory-range operand through the thread's data cache. -/
def Mach.loadRange (m : Mach) (c k a n : Nat) : Mach × Acc (List Byte) :=
  m.readRange (fun m x => m.coreWord c false k x) k a n

/-- Read a descriptor through the domain of the submitting core, as its engine port (R511, R514). -/
def Mach.portRange (m : Mach) (c k a n : Nat) : Mach × Acc (List Byte) :=
  m.readRange (fun m x =>
    let r := m.sharedWord (domainOf c) (if isTiller c then 8 else requesterOf c) k x
    (r.1, r.2.1)) k a n

end Sys2Proof.Machine
end

