-- ==== Sys2Proof/WellFormed.lean ====
section
/-! DEFINITION. Which commands are well formed: an instruction whose fields R115 leaves no reserved encoding in. -/

namespace Sys2Proof

/-- CMP: comb 0b11 and the conditions 8 to 15 are reserved (R133). -/
def wfCmp (comb : BitVec 2) (cond : BitVec 4) : Bool := comb != 3 && cond.toNat < 8
/-- MFS: special registers 16 to 31 are reserved (R150). -/
def wfMfs (sr : BitVec 5) : Bool := sr.toNat < 16
/-- MTS: only pl, ph and xpc may be named (R150). -/
def wfMts (sr : BitVec 5) : Bool := mtsOk sr
/-- Range operations: ra and rb name different registers, neither of them g0 (R156). -/
def wfRange (ra rb : BitVec 5) : Bool := ra != 0 && rb != 0 && ra != rb
/-- CMP.CT: size 0b11 is reserved (R171). -/
def wfCt (size : BitVec 2) : Bool := size != 3
/-- ILLEGAL-INSTRUCTION: the word encodes no instruction (R115). -/
def wfIllegal (c : Fin 72) (word : W32) : Bool := (decodeInsn c word).isNone

/-- A command is well formed. -/
def WellFormed : Instr → Bool
  | .cmp _ _ _ _ _ comb cond => wfCmp comb cond
  | .mfs _ _ _ sr => wfMfs sr
  | .mts _ _ sr _ => wfMts sr
  | .cacheClnR _ _ ra rb => wfRange ra rb
  | .cacheInvR _ _ ra rb => wfRange ra rb
  | .cmpCt _ _ _ size _ _ => wfCt size
  | .illegalInstruction c word => wfIllegal c word
  | .add _ _ _ _ _ => true
  | .sub _ _ _ _ _ => true
  | .and _ _ _ _ _ => true
  | .or _ _ _ _ _ => true
  | .xor _ _ _ _ _ => true
  | .andn _ _ _ _ _ => true
  | .shl _ _ _ _ _ => true
  | .shr _ _ _ _ _ => true
  | .sar _ _ _ _ _ => true
  | .ror _ _ _ _ _ => true
  | .min _ _ _ _ _ => true
  | .max _ _ _ _ _ => true
  | .minu _ _ _ _ _ => true
  | .maxu _ _ _ _ _ => true
  | .sextB _ _ _ _ => true
  | .sextH _ _ _ _ => true
  | .sextW _ _ _ _ => true
  | .zextB _ _ _ _ => true
  | .zextH _ _ _ _ => true
  | .zextW _ _ _ _ => true
  | .addi _ _ _ _ _ => true
  | .andi _ _ _ _ _ => true
  | .ori _ _ _ _ _ => true
  | .xori _ _ _ _ _ => true
  | .shifti _ _ _ _ _ _ => true
  | .movi _ _ _ _ _ _ => true
  | .cmpi _ _ _ _ _ _ => true
  | .pred _ _ _ _ _ _ => true
  | .ldB _ _ _ _ _ => true
  | .ldH _ _ _ _ _ => true
  | .ldW _ _ _ _ _ => true
  | .ldD _ _ _ _ _ => true
  | .ldBs _ _ _ _ _ => true
  | .ldHs _ _ _ _ _ => true
  | .ldWs _ _ _ _ _ => true
  | .stB _ _ _ _ _ => true
  | .stH _ _ _ _ _ => true
  | .stW _ _ _ _ _ => true
  | .stD _ _ _ _ _ => true
  | .br _ _ _ => true
  | .bl _ _ _ => true
  | .jr _ _ _ => true
  | .jlr _ _ _ _ => true
  | .resume _ _ => true
  | .mul _ _ _ _ => true
  | .mulh _ _ _ _ => true
  | .divStep _ _ _ => true
  | .par _ _ _ _ => true
  | .brev _ _ _ _ => true
  | .brevB _ _ _ _ => true
  | .bswap _ _ _ _ => true
  | .clz _ _ _ _ => true
  | .ctz _ _ _ _ => true
  | .popc _ _ _ _ => true
  | .crcStep _ _ _ _ _ _ _ => true
  | .movBlk _ _ _ => true
  | .fillBlk _ _ _ => true
  | .cmpBlk _ _ _ _ => true
  | .scanBlk _ _ _ _ _ => true
  | .crcBlk _ _ _ => true
  | .waitwork _ _ _ => true
  | .yield _ _ => true
  | .post _ _ _ => true
  | .sleep _ _ _ => true
  | .fence _ _ => true
  | .jobSubmit _ _ _ _ _ => true
  | .jobWait _ _ _ _ => true
  | .jobTest _ _ _ _ _ => true
  | .dgsOpen _ _ _ _ => true
  | .dgsUpdate _ _ _ _ _ => true
  | .dgsFinish _ _ _ _ _ => true
  | .dgsRelease _ _ _ => true
  | .mregExtend _ _ _ _ => true
  | .ledgerAudit _ _ _ _ => true
  | .insnmaxExceeded _ => true
  | .grnAlloc _ _ => true
  | .grnTryalloc _ _ => true
  | .heldAllocationGrant _ => true
  | .grnFree _ _ => true
  | .grnGive _ _ => true
  | .bufferHandoffAccept _ => true
  | .grnRecount _ _ => true
  | .quarantineReserve _ _ => true
  | .quarantineMove _ _ => true
  | .schTcbAlloc _ => true
  | .schTcbAllocSlice _ _ => true
  | .start _ _ => true
  | .stop _ _ => true
  | .restart _ _ => true
  | .delete _ _ => true
  | .tcbPrioWrite _ _ _ => true
  | .tcbFieldWrite _ _ _ _ => true
  | .coreAskWork _ => true
  | .heldRaiseAccept _ => true
  | .schEvtWrite _ _ _ => true
  | .schTmrWrite _ _ _ => true
  | .timerExpire _ => true
  | .sleepWake _ => true
  | .obsWindowWrite _ _ _ => true
  | .obsWindowClose => true
  | .mbxPost _ _ _ => true
  | .mbxTake _ _ => true
  | .mbxDbset _ _ _ => true
  | .mbxDbread _ _ => true
  | .mbxDbmaskWrite _ _ _ => true
  | .mbxBindWrite _ _ _ => true
  | .mbxTimeout _ => true
  | .lockRead _ _ => true
  | .lockWrite _ _ _ => true
  | .mbxLockcfgWrite _ _ _ => true
  | .lockForce _ _ _ => true
  | .resonatorLoss => true
  | .pwrVcoreReqWrite _ _ => true
  | .vcoreSettled => true
  | .thermalBandChange _ => true
  | .winnowBandChange _ => true
  | .overtempHold _ => true
  | .overtempReset _ => true
  | .vinWarning _ => true
  | .vinInhibit _ => true
  | .vinRecover _ => true
  | .holdWindowExpire => true
  | .vinReset _ => true
  | .railFault _ => true
  | .railReset _ => true
  | .moduleReset _ _ => true
  | .nreset _ => true
  | .alarmResume _ => true
  | .pwrAlarmEvtClear _ _ => true
  | .heldCmdPlace => true
  | .commandAccept _ => true
  | .dataInComplete _ => true
  | .noticePost _ => true
  | .identify _ => true
  | .read _ _ => true
  | .write _ _ => true
  | .flush _ => true
  | .trim _ _ => true
  | .verifyFixity _ _ => true
  | .scan _ => true
  | .loadProgram _ => true
  | .unloadProgram _ => true
  | .run _ => true
  | .setPower _ => true
  | .getLog _ => true
  | .keyLoad _ => true
  | .firmwareStage _ _ => true
  | .firmwareActivate _ => true
  | .abort _ => true
  | .powerQuietWindowClose => true
  | .powerEntryAbandon => true
  | .powerStatePrepared => true
  | .resetQp _ _ => true
  | .resetAll _ => true
  | .queueResetEnd => true
  | .hqReady _ => true
  | .qpCfgWrite _ _ _ => true
  | .flitReceive _ => true
  | .flitTransmit _ => true
  | .nakWindowExpire => true
  | .replayTimeout => true
  | .skipSend _ => true
  | .ts1Detect _ => true
  | .pollTimeout _ => true
  | .configComplete _ _ _ _ _ => true
  | .laneBlockLockFail _ => true
  | .laneErrorWindow _ _ => true
  | .linkBlockLockLoss _ => true
  | .retrain _ => true
  | .widen _ => true
  | .linkActiveTimeout => true
  | .pmEnter => true
  | .pmRefuseRetry => true
  | .idleEnterReceive _ => true
  | .lowpowerEntryTimeout => true
  | .electricalIdleExit _ => true
  | .holdWindowTimeout => true
  | .create _ _ _ => true
  | .createComplete => true
  | .destroy _ _ => true
  | .destroyComplete => true
  | .slcBindWrite _ _ _ => true
  | .landingComplete _ _ => true
  | .landingStripeTimeout _ => true
  | .mapUpdate _ _ => true
  | .foldCommit _ => true
  | .reclaim _ => true
  | .journalPageTimeout => true
  | .journalPageDurable => true
  | .checkpoint _ _ => true
  | .mapPageLoad _ _ => true
  | .mount _ _ => true
  | .unsealNs _ _ _ => true
  | .unsealModule _ => true
  | .sweep _ => true
  | .mapTimeWrite _ _ => true
  | .mapTimeTimeout => true
  | .retentionSweep _ _ _ => true
  | .nandOpIssue _ => true
  | .nandStatusRead _ _ _ => true
  | .nandOpTimeout _ => true
  | .resetLunTimeout _ => true
  | .eraseSuspend _ _ => true
  | .eraseResume _ => true
  | .vccqOvercurrent _ _ => true
  | .vccqLow _ _ => true
  | .vccqLowTimeout _ => true
  | .fchPtokPoolWrite _ _ => true
  | .compress _ _ _ => true
  | .decompress _ _ => true
  | .validate _ _ => true
  | .xtsEncrypt _ _ _ => true
  | .xtsDecrypt _ _ _ => true
  | .gcmEncrypt _ _ _ => true
  | .gcmDecrypt _ _ _ => true
  | .search _ => true
  | .insert _ => true
  | .winnowDelete _ => true
  | .winnowClear _ => true
  | .engineJobComplete _ _ => true
  | .grtOfflineWrite _ _ _ => true
  | .cphOfflineWrite _ _ _ => true
  | .keyErase _ _ => true
  | .keyReload _ _ => true
  | .spikeletStart _ _ _ => true
  | .spikeletEnd _ _ _ => true
  | .recordWrite _ => true
  | .prefetch _ _ => true
  | .evictionWriteback _ => true
  | .scrubGo _ _ => true
  | .scrubStop _ _ => true
  | .scrubRead => true
  | .eccCtlClear _ _ => true
  | .drcInit _ _ => true
  | .dramFillRegion _ => true
  | .retireRank _ _ => true
  | .migrationRegion => true
  | .dramRefresh _ => true
  | .mr4Read _ _ => true
  | .fwaProgram _ _ => true
  | .fwaClear _ _ => true
  | .fwaErase _ _ => true
  | .fwaSuspend _ _ => true
  | .fwaResume _ _ => true
  | .fwaOpComplete _ => true
  | .rdpRaise _ => true
  | .rdpSeal _ => true
  | .rdpLower _ => true
  | .confirm _ => true
  | .activationWindowExpire => true
  | .fwaLimp _ => true
  | .frzNAssert => true
  | .freeze _ => true
  | .freezeComplete => true
  | .thaw _ => true
  | .halt _ _ => true
  | .debugResume _ _ => true
  | .debugLower _ => true
  | .dbgaccUpdate _ => true
  | .extest => true
  | .samplePreload _ => true
  | .idcode => true
  | .clamp => true
  | .highz => true
  | .dbgacc => true
  | .bypass => true
  | .i2cRead _ => true
  | .registerWrite _ _ _ => true
  | .lanesLocked _ => true
  | .vccqOutRecover _ _ => true
  | .overtempRelease _ => true
  | .dgsFinishDone _ => true
  | .dramTrainingDone _ _ _ => true
  | .testLogicReset => true
  | .freezeMonitorReady _ _ => true

end Sys2Proof
end

