-- ==== Sys2Proof/Machine/Thread.lean ====
section
/-! DEFINITION. How an instruction of the Aedjor set executes on a core: which conditions are met before its body, in the order of R109,
and what its outcome does to the thread (R94, R95, R107 to R111, R120, R613). -/

namespace Sys2Proof.Machine

/-- A command's effect on the machine, everything but the queue. -/
def State.act (s : State) (f : Mach → Mach) : Host.Outcome State Fault Refusal := .next { s with m := f s.m }

/-- A row of the command under a tag: nothing while the fabric rests, and none where the command's entry disagrees (R597). -/
def State.onCommand (s : State) (tag : Nat) (f : Mach → Mach) : Host.Outcome State Fault Refusal := s.act fun m => m.fabric fun m => m.sound tag f

/-- What the body of an instruction comes to. -/
inductive Res where
  /-- it completed: it retires and the next instruction follows -/
  | done (m : Mach)
  /-- it completed and control goes elsewhere -/
  | jump (m : Mach) (pc : PcWord)
  /-- RESUME with TS_EXC set -/
  | resume (m : Mach)
  /-- an exception at this instruction: cause, detail, address -/
  | exc (m : Mach) (cause detail : Nat) (xa : W64)
  /-- it holds or has left the core: it has not completed -/
  | stay (m : Mach)

/-- Read-out protection level (R572). -/
def Fwa.level (f : Fwa) : Nat := if f.sealed then 2 else if f.lowdone < f.raise then 1 else 0

/-- The breakpoint that a fetch meets: enabled, at the address, admitting the ring (R613); none at level 2 (R572). -/
def Mach.breakpoint (m : Mach) (k : Nat) : Option Nat :=
  let t := m.thr k
  if m.fwa.level = 2 then none
  else (List.range 8).find? fun i =>
    let b := tget Bp.reset m.dbg.bps i
    b.en && b.addr == t.pc && b.rings.getLsbD t.ring.code

/-- The budget of a filter thread's spikelet (R494). -/
def Mach.insnMax (m : Mach) (k : Nat) : Option Nat :=
  (m.scans.find? fun s => s.2.spks.any fun e => e.2.state == .running k).map (·.2.insnMax)

/-- Has the thread retired the whole budget of its spikelet (R494)? -/
def Mach.spent (m : Mach) (k : Nat) : Bool :=
  match m.insnMax k with
  | none => false
  | some n => n ≤ (m.thr k).retired

/-- The thread that core c can execute an instruction of now: it runs there, holds nothing, and neither the core nor the module rests. -/
def Mach.runner (m : Mach) (c : Nat) : Option Nat :=
  let v := m.core c
  if m.resting || v.off || v.halted || decide (3 ≤ m.hq.pstate) then none
  else match v.thr with
    | none => none
    | some k => if (m.thr k).state == .running && (m.thr k).hold == .none && !m.spent k then some k else none

/-- Finish an instruction. -/
def Res.close (r : Res) (k : Nat) (word : W32) : Mach :=
  match r with
  | .done m => m.modThr k fun t => t.retire.advance
  | .jump m pc => m.modThr k fun t => { t.retire with pc := pc }
  | .resume m => m.modThr k fun t => { t.resumed with retired := t.retired + 1 }
  | .exc m cause detail xa => m.exception k word cause detail xa
  | .stay m => m

/-- Execute an instruction on core c (R109): fetch, breakpoint, guard, encoding, then its body. -/
def Mach.insn (m : Mach) (c : Nat) (gd : BitVec 4) (i : Instr) (body : Mach → Nat → Res) : Mach :=
  match m.runner c with
  | none => m
  | some k =>
    let word := (encode i).getD 0
    match m.fetch c k with
    | (m1, .fault cause detail xa) => m1.exception k 0 cause detail xa
    | (m1, .wait) => m1
    | (m1, .ok _) =>
      match m1.breakpoint k with
      | some b => m1.exception k 0 9 b (pcVal (m1.thr k).pc)
      | none =>
        if !(m1.thr k).guard gd then (Res.done m1).close k word
        else if !WellFormed i then (Res.exc m1 1 0 0).close k word
        else (body m1 k).close k word

/-- A body that only changes the thread's own registers. -/
def regBody (f : Thr → Thr) (m : Mach) (k : Nat) : Res := .done (m.modThr k f)

/-- A thread leaves its core for WAITING, or stops there when a STOP is pending and its wait is one that R183 abandons. -/
def Mach.leaveCore (m : Mach) (k : Nat) (w : WaitKind) : Mach :=
  let t := m.thr k
  let m1 := m.freeCore t.core
  if t.stopPend && (w == .waitwork || w == .sleep) then m1.stopQuiet k
  else m1.setThr k { t with state := .waiting, waitKind := w }

end Sys2Proof.Machine
end

