-- ==== Sys2Proof/Machine/Reg.lean ====
section
/-! DEFINITION. Register accesses: what a requester receives, who may make them, the reserved-write record (R104, R117 to R119), and
the fields of SYS. -/

namespace Sys2Proof.Machine

/-- What a register access comes to. -/
inductive RegOut where
  | value (v : W64)
  | done
  /-- CONTROL-DENIED with its detail: 1 a read, 2 a write (R104, R108) -/
  | denied (detail : Nat)
  /-- BUS-ERROR with its detail (R11, R108) -/
  | bus (detail : Nat)
  /-- INTEGRITY: the access met an integrity alarm of a class (R598) -/
  | integrity (cls : Nat)
  /-- the access holds its requester -/
  | hold
deriving DecidableEq, Repr

/-- The answer that a requester outside every thread receives. -/
def RegOut.answer : RegOut → Answer
  | .value v => .value v
  | .done => .done
  | .denied d => .denied d
  | .bus d => .busError d
  | .integrity c => .integrity c
  | .hold => .held

/-- A register access by a requester of its own command: nothing while the fabric rests. -/
def State.access (s : State) (f : Mach → Mach × RegOut) : Host.Outcome State Fault Refusal :=
  s.act fun m => m.fabric fun m => let r := f m; r.1.answer r.2.answer

/-- Is the requester ring 0 or ring 1? -/
def Who.low (w : Who) : Bool := w.ring != .r2
/-- Is the requester ring 0? -/
def Who.zero (w : Who) : Bool := w.ring == .r0
/-- Is the requester a thread of slice s? -/
def Who.of (w : Who) (s : Nat) : Bool := w.ring == .r2 && w.slice == s

/-- Record a write with reserved bits set (`enc` false, event 992) or a refused encoding (`enc` true, event 993) (R117 to R119). -/
def Mach.rsvd (m : Mach) (w : Who) (a : Nat) (enc : Bool) : Mach :=
  let y := m.sys
  let y1 := if y.rsvFlag then { y with rsvCount := sat 65535 (y.rsvCount + 1) }
    else { y with rsvFlag := true, rsvKind := enc, rsvRing := w.ring.code, rsvCount := sat 65535 (y.rsvCount + 1),
                  rsvAddr := BitVec.ofNat 40 a }
  Mach.raise { m with sys := y1 } (if enc then 993 else 992)

/-- A register write: `may` says the ring may, `ok` that no field takes a reserved encoding, `rsv` which bits are reserved, and `f`
sets the fields. -/
def Mach.writeReg (m : Mach) (w : Who) (a : Nat) (v rsv : W64) (may ok : Bool) (f : Mach → Mach) : Mach × RegOut :=
  if !may then (m, .denied 2)
  else if !ok then (m.rsvd w a true, .done)
  else
    let m1 := f m
    (if v &&& rsv = 0 then m1 else m1.rsvd w a false, .done)

/-- A register read that only gives a value. -/
def Mach.readReg (m : Mach) (may : Bool) (v : W64) : Mach × RegOut := if may then (m, .value v) else (m, .denied 1)

/-- Bits of a register that no field takes: all of them but the given ranges. -/
def rsvBits (used : List (Nat × Nat)) : W64 := used.foldl (fun r u => r &&& ~~~(maskOf u.1 u.2)) (BitVec.allOnes 64)

/-- A read of an offset that no chapter assigns, or of a register that only reads zero: rings 0 and 1 (R105). -/
def Mach.noRead (m : Mach) (w : Who) : Mach × RegOut := m.readReg w.low 0

/-- A write to a register none of whose fields a write sets: rings 0 and 1; reserved bits are recorded (R12, R104, R105). -/
def Mach.idleWrite (m : Mach) (w : Who) (a : Nat) (v rsv : W64) : Mach × RegOut := m.writeReg w a v rsv w.low true id

/-- A write to a register that the chapter says no ring writes: ring 0 alone may, and it changes nothing (R104). -/
def Mach.deadWrite (m : Mach) (w : Who) (a : Nat) (v rsv : W64) : Mach × RegOut := m.writeReg w a v rsv w.zero true id

/-! ## SYS (chapters 00 and 03) -/

/-- SYS_RSVD_WRITE as it reads (R119). -/
def Sys.rsvWord (y : Sys) : W64 :=
  flagAt 63 y.rsvFlag ||| flagAt 62 y.rsvKind ||| at_ 60 y.rsvRing ||| at_ 40 y.rsvCount ||| at_ 0 y.rsvAddr.toNat

/-- SYS_FWPROT_k as it reads (R103). -/
def FwProt.word (f : FwProt) : W64 := flagAt 63 f.valid ||| at_ 28 f.limit.toNat ||| at_ 0 f.base.toNat

end Sys2Proof.Machine
end

