-- ==== Sys2Proof/Machine/Granary.lean ====
section
/-! DEFINITION. The granary's registers and commands: allocation, release, handoff, the recount and the audit of the books
(R57 to R79). -/

namespace Sys2Proof.Machine

/-- Address of a GRN register. -/
def grnReg (off : Nat) : Nat := 0x200100000 + off

/-- The word that an allocating read returns (R62). -/
def allocWord (k : Nat) : W64 := at_ 16 (bufAddr k) ||| at_ 0 (handleOf k)
/-- The word of a refused allocation. -/
def refuseWord (reason : Nat) : W64 := flagAt 63 true ||| at_ 60 reason

/-- An allocating read (R62, R63): `wait` for GRN_ALLOC_c, which holds its reader where GRN_TRYALLOC_c refuses. -/
def Mach.allocRead (m : Mach) (w : Who) (thread wait : Bool) (c : Nat) : Mach × RegOut :=
  if 6 ≤ c ∨ (w.ring = .r2 ∧ c ≠ 5) then (m, .value (refuseWord 4))
  else
    match m.allocReason c w.charge with
    | 0 => let r := m.alloc c w.owner w.charge; (r.2, .value (allocWord r.1))
    | n =>
      if wait then ({ m with grn := { m.grn with held := m.grn.held ++ [{ who := w, cls := c, thread := thread }] } }, .hold)
      else (m, .value (refuseWord n))

/-- A load delivers its value: at once, or with TS_LDC just after the next retired instruction (R122, R123). The load's own
retirement is the first of the two that the pending value waits for; a load already pending lands first. -/
def Thr.deliver (t : Thr) (rd : BitVec 5) (v : W64) : Thr :=
  if t.ldc then
    let t1 := match t.pload with
      | none => t
      | some l => t.landLoad l
    { t1 with pload := some { left := 2, rd := rd, val := v } }
  else t.gw rd v

/-- A thread's held instruction completes: it retires, and the thread goes on. -/
def Thr.unhold (t : Thr) : Thr := { t with hold := .none }.retire.advance

/-- A held allocation is granted: the load completes with the buffer, or the requester receives its answer (R62, R65). -/
def Mach.grantHeld (m : Mach) (h : HeldAlloc) : Mach :=
  let r := m.alloc h.cls h.who.owner h.who.charge
  if h.thread then
    r.2.modThr h.who.tcb fun t =>
      match t.hold with
      | .alloc _ rd => (t.deliver rd (allocWord r.1)).unhold
      | _ => t
  else r.2.answer (.value (allocWord r.1))

/-- Forget item n of a list. -/
def dropAt {α : Type} : List α → Nat → List α
  | [], _ => []
  | _ :: t, 0 => t
  | a :: t, n + 1 => a :: dropAt t n

/-- May this requester let go of buffer k (R64)? -/
def Mach.mayFree (m : Mach) (w : Who) (k : Nat) : Bool :=
  (m.buf k).state == .owned && ((m.buf k).owner == w.owner || w.zero)

/-- Is this a target that R64 lets a buffer be given to? -/
def giveTarget (o : Nat) : Bool :=
  let n := o % 4096
  match o / 4096 with
  | 1 | 2 | 10 | 12 => n == 0
  | 3 => n < 256
  | 4 => n < 512
  | 5 => n < 2
  | 6 => n < 96
  | 7 => n < 8
  | 8 | 9 => n < 4
  | _ => false

/-- A write to GRN_FREE or GRN_GIVE names a buffer; the attributes of a buffer that disagree with their complement raise the
integrity alarm of the ledger class (R597). -/
def Mach.onHandle (m : Mach) (h : Nat) (f : Nat → Mach) : Mach × RegOut :=
  match m.bufOf h with
  | none => (m.granaryFault, .done)
  | some k => if (m.buf k).cplOk then (f k, .done) else (m.alarm 6 (grnReg (0x8000 + 8 * k)), .integrity 6)

/-- A write to GRN_FREE (R64). -/
def Mach.freeWrite (m : Mach) (w : Who) (v : W64) : Mach × RegOut :=
  let r := m.onHandle (fld v 13 0) fun k =>
    if m.mayFree w k then
      let quar := (m.buf k).owner.extractLsb' 12 4 == 0xB
      let m1 := m.release k
      if quar then m1.quarLost k else m1
    else m.granaryFault
  (if v &&& rsvBits [(13, 0)] = 0 then r.1 else r.1.rsvd w (grnReg 0x480) false, r.2)

/-- Buffer k goes to TRANSIT toward a receiver (R64, R72). -/
def Mach.handOff (m : Mach) (k : Nat) (o : BitVec 16) : Mach :=
  let m1 := m.setBuf k { m.buf k with state := .transit }
  Mach.toTransit { m1 with grn := { m1.grn with handoffs := m1.grn.handoffs ++ [(k, o)] } } 0 1 k

/-- A write to GRN_GIVE (R64). -/
def Mach.giveWrite (m : Mach) (w : Who) (v : W64) : Mach × RegOut :=
  let o := fld v 31 16
  let r := m.onHandle (fld v 13 0) fun k =>
    if m.mayFree w k && giveTarget o then m.handOff k (BitVec.ofNat 16 o) else m.granaryFault
  (if v &&& rsvBits [(31, 16), (13, 0)] = 0 then r.1 else r.1.rsvd w (grnReg 0x490) false, r.2)

/-- The receiver accepts buffer k: it is OWNED by the receiver, and TRANSIT ends (R73). -/
def Mach.acceptHandoff (m : Mach) (k : Nat) : Mach :=
  match m.grn.handoffs.find? fun x => x.1 == k with
  | none => m
  | some (_, o) =>
    let m1 := m.setBuf k { m.buf k with state := .owned, owner := o }
    Mach.transitToHeld { m1 with grn := { m1.grn with handoffs := m1.grn.handoffs.filter fun x => x.1 != k } } 0 1 k

/-! ## Recount (R79) -/

/-- Buffers of the table for which a test holds. -/
def Mach.countBufs (m : Mach) (p : Buf → Bool) : Nat := (m.grn.bufs.filter fun e => e.2.state != .free && p e.2).length

/-- GRN_RECOUNT rebuilds BUF, the class counts and every slice sub-ledger from the buffer table. -/
def Mach.recount (m : Mach) : Mach :=
  let n := m.countBufs fun b => b.state == .owned
  let tr := m.grn.bufs.filter fun e => e.2.state == .transit
  let l := m.ledger 0
  let free := m.bufTotal - n - tr.length
  let l1 : Ledger := { l with free := free, held := n, transit := tr.length, hwm := Nat.max l.hwm n,
                              cpl := ~~~(ledgerWord free n), cplT := ~~~(BitVec.ofNat 32 tr.length),
                              moments := tr.map fun e => (e.1, 0) }
  let m1 := m.setLedger 0 l1
  let m2 := (List.range 7).foldl (fun m c =>
    let h := m.countBufs fun b => b.cls == c
    m.setCls c { m.cls c with held := h, hwm := Nat.max (m.cls c).hwm h }) m1
  let cnt := fun (s : Nat) => m2.countBufs fun b => b.charged == some s
  { m2 with grn := { m2.grn with slq := (List.range 256).filterMap fun s =>
      let v : Slq := { m2.slq s with held := cnt s }
      if v = Slq.reset then none else some (s, v) } }

/-- A write to GRN_RECOUNT: ring 0 only. -/
def Mach.recountWrite (m : Mach) (w : Who) (v : W64) : Mach × RegOut :=
  m.writeReg w (grnReg 0x508) v (rsvBits [(0, 0)]) w.zero true fun m => if bit v 0 then m.recount else m

/-! ## The audit (R77, R78, R172) -/

/-- Open moments of ledger k, their ages within the bound of R72. -/
def Mach.momentsOk (m : Mach) (k : Nat) : Bool :=
  let l := m.ledger k
  let bound := if k = 0 then 64 else if 10 ≤ k then 512 else 1
  l.transit == l.moments.length && l.moments.all fun x => x.2 ≤ bound

/-- Held counts of the partition sub-ledgers of ledger k, summed; none where it has no partition. The items of a buffer in TRANSIT
stay in their class, so the sum for BUF counts TRANSIT as well. -/
def Mach.partitionSum (m : Mach) (k : Nat) : Option Nat :=
  match k with
  | 0 => some (((List.range 7).map fun c => (m.cls c).held).sum - (m.ledger 0).transit)
  | 5 => some (((List.range 8).map fun e => (m.engine (0x10 + e)).jobs.length).sum)
  | 6 => some (((List.range 4).map fun q => (m.engine (0x20 + q)).jobs.length).sum)
  | 7 => some (m.dgs.ctxs.filter fun e => e.2.open_).length
  | 8 => some (4096 * m.countBufs fun b => b.owner.extractLsb' 12 4 == 0xB)
  | _ => none

/-- Held counts of the slice sub-ledgers of ledger k, summed. -/
def Mach.sliceSum (m : Mach) (k : Nat) : Nat :=
  match k with
  | 0 => (m.grn.slq.map fun e => e.2.held).sum
  | 4 => (m.grn.tcbOf.map fun e => e.2).sum
  | 9 => (m.fch.sltok.map fun e => e.2).sum
  | _ => 0

/-- A ledger's stored complements disagree with it. -/
def Mach.cplBad (m : Mach) (k : Nat) : Bool :=
  let l := m.ledger k
  l.cpl != ~~~(ledgerWord l.free l.held) || l.cplT != ~~~(BitVec.ofNat 32 l.transit)

/-- Does the audit flag ledger k (R77)? -/
def Mach.ledgerFlagged (m : Mach) (k : Nat) : Bool :=
  let l := m.ledger k
  m.cplBad k || l.free + l.held + l.transit != l.total || !m.momentsOk k ||
    (match m.partitionSum k with | some n => n != l.held | none => false) ||
    decide (l.held + l.transit < m.sliceSum k)

/-- Does the audit flag slice s (R77)? -/
def Mach.sliceFlagged (m : Mach) (s : Nat) : Bool :=
  let v := m.slq s
  decide (v.quota < v.held) || v.held != m.countBufs fun b => b.charged == some s

/-- The flag mask of an audit over the scope of a requester, its complement flag and the first slice flagged. -/
def Mach.auditFlags (m : Mach) (w : Who) : BitVec 14 × Bool × Option Nat :=
  if w.low then
    let ks := (List.range 14).filter m.ledgerFlagged
    (BitVec.ofNat 14 ((ks.map fun k => 2 ^ k).sum), (List.range 14).any m.cplBad, (List.range 256).find? m.sliceFlagged)
  else (0, false, if m.sliceFlagged w.slice then some w.slice else none)

/-- LEDGER.AUDIT: the verdict, the mask for rd, and what GRN_AUDIT_STAT and the alarm take (R77 to R79). -/
def Mach.audit (m : Mach) (w : Who) : Mach × Bool × W64 :=
  let (ls, cpl, sl) := m.auditFlags w
  let ok := ls == 0 && !cpl && sl.isNone
  let mask := at_ 0 ls.toNat ||| flagAt 14 sl.isSome
  let g := m.grn
  let g1 := { g with audMask := g.audMask ||| ls, audCpl := g.audCpl || cpl, audSub := g.audSub || sl.isSome,
                     audSlice := sl.getD g.audSlice }
  let m1 := { m with grn := g1 }
  let loc := match (List.range 14).find? fun k => ls.getLsbD k || m.cplBad k with
    | some k => grnReg (0x1000 + 0x20 * k)
    | none => grnReg (0x2000 + 8 * sl.getD 0)
  (if ok then m1 else m1.alarm 6 loc, ok, mask)

/-! ## Commands -/

/-- GRN_ALLOC (R62). -/
def execGrnAlloc (w : Who) (cls : Fin 8) (s : State) : Host.Outcome State Fault Refusal :=
  s.access fun m => m.allocRead w false true cls

/-- GRN_TRYALLOC (R62). -/
def execGrnTryalloc (w : Who) (cls : Fin 8) (s : State) : Host.Outcome State Fault Refusal :=
  s.access fun m => m.allocRead w false false cls

/-- HELD_ALLOCATION_GRANT (R65): held allocation n is granted once R59 and R60 permit it. -/
def execHeldAllocationGrant (n : Nat) (s : State) : Host.Outcome State Fault Refusal :=
  s.act fun m => m.fabric fun m =>
    match m.grn.held[n]? with
    | none => m
    | some h =>
      if m.allocReason h.cls h.who.charge = 0 then
        Mach.grantHeld { m with grn := { m.grn with held := dropAt m.grn.held n } } h
      else m

/-- GRN_FREE (R64). -/
def execGrnFree (w : Who) (v : W64) (s : State) : Host.Outcome State Fault Refusal :=
  s.access fun m => m.freeWrite w v

/-- GRN_GIVE (R64). -/
def execGrnGive (w : Who) (v : W64) (s : State) : Host.Outcome State Fault Refusal :=
  s.access fun m => m.giveWrite w v

/-- BUFFER_HANDOFF_ACCEPT (R73): the receiver of the buffer that a handle names accepts it. -/
def execBufferHandoffAccept (h : BitVec 14) (s : State) : Host.Outcome State Fault Refusal :=
  s.act fun m => m.fabric fun m =>
    match m.bufOf h.toNat with
    | none => m
    | some k => m.acceptHandoff k

/-- GRN_RECOUNT (R79). -/
def execGrnRecount (w : Who) (v : W64) (s : State) : Host.Outcome State Fault Refusal :=
  s.access fun m => m.recountWrite w v

/-- LEDGER.AUDIT (R77, R172). -/
def execLedgerAudit (c : Fin 72) (gd : BitVec 4) (rd : BitVec 5) (pd : BitVec 3) (s : State) : Host.Outcome State Fault Refusal :=
  s.act fun m => m.insn c gd (.ledgerAudit c gd rd pd) fun m k =>
    let (m1, ok, mask) := m.audit (m.who k)
    .done (m1.modThr k fun t => (t.gw rd mask).pw pd ok)

end Sys2Proof.Machine
end

