-- ==== Sys2Proof/Machine/Sched.lean ====
section
/-! DEFINITION. The hardware scheduler: thread control blocks, commands, dispatch, waiting, events, timers and observation windows
(chapter 05, R152 to R155). -/

namespace Sys2Proof.Machine

/-- Address of a SCH register. -/
def schReg (off : Nat) : Nat := 0x200200000 + off

/-! ## Thread control blocks (R175 to R185) -/

/-- Thread control blocks in use, rising. -/
def Mach.tcbsInUse (m : Mach) : List Nat :=
  (m.sch.thrs.filter fun e => e.2.state != .free && decide (e.1 < m.tcbTotal)).map (·.1)

/-- Allocate a thread control block, charged to a slice or to none: any free one (R49, R177). -/
def Mach.allocTcb (m : Mach) (sl : Option Nat) : Nat × Mach :=
  let (r, m1) := m.draw (m.tcbTotal - m.tcbsInUse.length)
  let k := nthFree r 0 m1.tcbsInUse
  let m2 := m1.setThr k { Thr.reset with state := .idle, ofSlice := sl.isSome, slice := sl.getD 0 }
  let m3 := match sl with
    | some s => { m2 with grn := { m2.grn with tcbOf := tmod 0 (· + 1) m2.grn.tcbOf s } }
    | none => m2
  (k, m3.take 4 1)

/-- Why a thread control block is refused: 0 granted (R177). -/
def Mach.tcbReason (m : Mach) (sl : Option Nat) : Nat :=
  let none_ := (m.ledger 4).free = 0 ∨ m.tcbTotal ≤ m.tcbsInUse.length
  match sl with
  | none => if none_ then 1 else 0
  | some s =>
    if (m.slice s).state ≠ .live then 4
    else if (m.slice s).desc.tcbq ≤ tget 0 m.grn.tcbOf s then 2
    else if none_ then 1 else 0

/-- A read of SCH_TCB_ALLOC or SCH_TCB_ALLOC_s: rings 0 and 1 (R177). A block that no START has reached is one of the ring that
allocated it (DEDUCED). -/
def Mach.tcbAllocRead (m : Mach) (w : Who) (sl : Option Nat) : Mach × RegOut :=
  if !w.low then (m, .denied 1)
  else match m.tcbReason sl with
    | 0 =>
      let r := m.allocTcb sl
      (if sl.isNone && !w.zero then r.2.modThr r.1 fun t => { t with ring := .r1 } else r.2, .value (at_ 0 r.1))
    | n => (m, .value (refuseWord n))

/-- Is the readiness of block k held for want of ready-list entries? -/
def Mach.readyHeld (m : Mach) (k : Nat) : Bool := m.sch.held.any fun h => match h with | .ready j => j == k | _ => false

/-- May a requester command and write block k (R178)? Ring 1: blocks of ring-1 and ring-2 threads. -/
def Mach.mayBlock (m : Mach) (w : Who) (k : Nat) : Bool :=
  let t := m.thr k
  match w.ring with
  | .r0 => true
  | .r1 => t.ofSlice || t.ring != .r0 || t.state == .free
  | .r2 => false

/-- A checked image that an address lies in: its ring, its LDC flag, and its slice (R84, R294, R575). -/
structure ImgAt where
  ring  : Ring
  ldc   : Bool
  slice : Option Nat
deriving DecidableEq, Repr

/-- Stored little-endian value of n bytes at a physical address. -/
def Mach.peekLe (m : Mach) (a n : Nat) : Nat := leNat (m.rawBytes a n)

/-- The checked image at an address: the running base firmware in its bank, or a program-table entry. -/
def Mach.imageAt (m : Mach) (a : Nat) : Option ImgAt :=
  let base := fwaBase + 0x1000000 * m.fwa.bank
  if !m.fwa.limp && !m.fwa.bootRec.isEmpty && decide (base ≤ a) && decide (a < base + 64 + m.peekLe (base + 8) 4)
  then some { ring := .r0, ldc := bit (w64 (m.peekLe (base + 7) 1)) 0, slice := none }
  else
    (m.slc.progs.find? fun e => decide (e.2.base ≤ a) && decide (a < e.2.base + 64 + e.2.bodyLen)).map fun e =>
      { ring := e.2.ring, ldc := e.2.ldc, slice := if e.1 < 16384 then some (e.1 / 64) else none }

/-- Does slice s hold a program-memory unit that reduced-DRAM mode has withdrawn (R555)? -/
def Mach.crippled (m : Mach) (s : Nat) : Bool :=
  let d := (m.slice s).desc
  m.slc.withdrawn.any fun u => decide (d.pmfirst ≤ u) && decide (u < d.pmfirst + d.pmcnt)

/-- The conditions of START in their order: 0, or the code of the first that fails (R181, R182). -/
def Mach.startCode (m : Mach) (w : Who) (k : Nat) : Nat :=
  let t := m.thr k
  match m.imageAt (pcAddr t.entry) with
  | none => 1
  | some i =>
    let d := (m.slice t.slice).desc
    let fits := if t.ofSlice then i.ring == .r2 && i.slice == some t.slice else i.ring != .r2
    if !fits || (t.ofSlice && m.crippled t.slice) then 1
    else if !(w.zero || (w.ring == .r1 && i.ring != .r0)) then 5
    else if t.mask = 0 ∨ (if t.ofSlice then t.mask &&& ~~~d.tmask ≠ 0 else t.mask &&& ~~~0xFF ≠ 0) then 2
    else if t.ofSlice && decide (t.prio < d.ceil) then 3 else 0

/-- A block's registers as START sets them (R181). -/
def Thr.started (t : Thr) (i : ImgAt) : Thr :=
  { t with state := .idle, ring := i.ring, ldc := i.ldc, err := 0, waitTime := 0, g := if t.arg = 0 then [] else [(1, t.arg)], p := [],
           pl := 0, ph := 0, pc := t.entry, xpc := 0, xc := 0, xa := 0, exc := false, prods := [], pload := none,
           savProds := [], savLoad := none, wake := .none, hold := .none, retired := 0, waitKind := .none, stopPend := false }

/-- The result code of a command stands in ERR (R181). -/
def Mach.setErr (m : Mach) (k n : Nat) : Mach := m.modThr k fun t => { t with err := n }

/-- START, and RESTART after it has cleared the record: the checks, then READY (R181, R182). -/
def Mach.startBlock (m : Mach) (w : Who) (k : Nat) : Mach :=
  match m.startCode w k, m.imageAt (pcAddr (m.thr k).entry) with
  | 0, some i => (m.modThr k fun t => t.started i).ready k .none
  | n, _ => m.setErr k n

/-- An SCH_CTL command on block k (R181). -/
def Mach.schCommand (m : Mach) (w : Who) (op k : Nat) : Mach :=
  let t := m.thr k
  if !m.mayBlock w k then m.setErr k 5
  else if m.readyHeld k && op ≠ 2 || t.deleting then m.setErr k 4
  else match op with
    | 1 => if t.state = .idle then m.startBlock w k else m.setErr k 4
    | 2 =>
      match t.state with
      | .ready | .running | .waiting =>
        if m.readyHeld k then
          let m1 := { m with sch := { m.sch with held := m.sch.held.filter fun h => h != HeldRaise.ready k } }
          (m1.stopQuiet k).setErr k 0
        else (m.stopBlock k).setErr k 0
      | _ => m.setErr k 4
    | 3 =>
      match t.state with
      | .stopped | .idle =>
        if m.startCode w k = 0 then (m.modThr k fun t => { t with xrec := 0 }).startBlock w k
        else m.setErr k (m.startCode w k)
      | _ => m.setErr k 4
    | _ =>
      match t.state with
      | .stopped | .idle => m.deleteBlock k
      | _ => m.setErr k 4

/-- A write to SCH_CTL: rings 0 and 1 (R104, R181). -/
def Mach.schCtlWrite (m : Mach) (w : Who) (v : W64) : Mach × RegOut :=
  let op := fld v 63 60
  let k := fld v 11 0
  m.writeReg w (schReg 0x8) v (rsvBits [(63, 60), (11, 0)]) w.low (1 ≤ op ∧ op ≤ 4 ∧ k < m.tcbTotal) fun m => m.schCommand w op k

/-- The word of an SCH_CTL command. -/
def ctlWord (op k : Nat) : W64 := at_ 60 op ||| at_ 0 k

/-- A PRIO write (R190): a READY thread moves to the tail of its new level with a new arrival. -/
def Mach.setPrio (m : Mach) (k p : Nat) : Mach :=
  let m1 := m.modThr k fun t => { t with prio := p }
  if (m.thr k).state = .ready then
    let m2 := (m1.unready k).modThr k fun t => { t with curPrio := p }
    Mach.noteDepth { m2 with sch := { m2.sch with ready := m2.sch.ready ++ [{ tcb := k, level := p, stamp := m2.tb }] } } k
  else m1

/-- A write to register r of block k (R178 to R180). -/
def Mach.tcbWrite (m : Mach) (w : Who) (k r : Nat) (v : W64) : Mach × RegOut :=
  let t := m.thr k
  let a := schReg (0x80000 + 0x80 * k + 8 * r)
  let may := m.mayBlock w k
  let still := t.state == .idle || t.state == .stopped
  let there := t.state != .free
  let wr := fun (rsv : W64) (ok : Bool) (f : Thr → Thr) => m.writeReg w a v rsv may ok fun m => m.modThr k f
  if r = 0 then
    let ok := there && !(t.ofSlice && decide (fld v 44 40 < (m.slice t.slice).desc.ceil))
    m.writeReg w a v (rsvBits [(63, 58), (55, 48), (44, 40), (35, 27), (6, 0)]) may ok fun m => m.setPrio k (fld v 44 40)
  else if r = 1 then wr 0 still fun t => { t with mask := v }
  else if r = 2 then wr (rsvBits [(39, 2)]) still fun t => { t with entry := pcOf v }
  else if r = 3 then wr (rsvBits [(39, 2)]) there fun t => { t with handler := pcOf v }
  else if r = 4 then wr 0 still fun t => { t with arg := v }
  else if r = 5 then wr 0 true id
  else if r = 6 then wr (rsvBits [(63, 32), (15, 0)]) true id
  else if r = 7 then wr (BitVec.allOnes 64) true id
  else wr 0 (still && fld v 59 56 == 0) fun t => { t with wn := tset t.wn (r - 8) v }

/-- SCH_TCB_STATE as it reads (R179). -/
def Thr.stateWord (t : Thr) : W64 :=
  let code := match t.state with
    | .free => 0 | .idle => 1 | .ready => 2 | .running => 3 | .waiting => 4 | .stopped => 5
  let wk := match t.state, t.waitKind with
    | .waiting, .waitwork => 1
    | .waiting, .sleep => 2
    | .waiting, .jobWait => 3
    | .waiting, .dgsFinish => 4
    | _, _ => 0
  at_ 61 code ||| at_ 59 (if t.state = .idle then 0 else t.ring.code) ||| flagAt 58 t.ldc ||| at_ 48 (if t.ofSlice then t.slice else 0) ||| at_ 40 t.prio |||
  at_ 32 wk ||| at_ 28 t.err ||| flagAt 27 t.stopPend ||| at_ 0 t.core

/-- Register r of block k as it reads (R178). -/
def Thr.field (t : Thr) (r : Nat) : W64 :=
  match r with
  | 0 => t.stateWord
  | 1 => t.mask
  | 2 => pcVal t.entry
  | 3 => pcVal t.handler
  | 4 => t.arg
  | 5 => w64 t.waitTime
  | 6 => t.xrec
  | 7 => 0
  | _ => tget 0 t.wn (r - 8)

/-! ## Dispatch (R186 to R188) -/

/-- Group of a core. -/
def groupOf (c : Nat) : Nat := if isTiller c then c / 8 else 8

/-- Does a thread's mask admit a core? -/
def Thr.admits (t : Thr) (c : Nat) : Bool :=
  if isTiller c then t.ring == .r2 && t.mask.getLsbD c else t.ring != .r2 && t.mask.getLsbD (c - 64)

/-- The thread a core receives: the highest level that has one it admits, the earliest arrival at that level (R187). -/
def Mach.choice (m : Mach) (c : Nat) : Option Nat :=
  (List.range 32).findSome? fun l => (m.sch.ready.find? fun r => r.level == l && (m.thr r.tcb).admits c).map (·.tcb)

/-- A waited instruction completes at dispatch (R152 to R155, R165, R168). -/
def Thr.awake (t : Thr) : Thr :=
  let t1 := { t with wake := .none }
  match t.wake with
  | .none => t1
  | .event e => (t1.gw t.waitRd (w64 e)).retire.advance
  | .slept => t1.retire.advance
  | .yielded => t1.retire.advance
  | .value v => (t1.gw t.waitRd v).retire.advance

/-- Core c asks for work. A block that disagrees with its complement stops with cause INTEGRITY (R597). -/
def Mach.ask (m : Mach) (c : Nat) : Mach :=
  let v := m.core c
  if v.off || v.halted || v.thr.isSome || decide (3 ≤ m.hq.pstate) then m
  else match m.choice c with
    | none => m.setCore c { v with asking := true }
    | some k =>
      let m1 := m.unready k
      if m.unsound (.block k) then
        ((m1.meet (.block k)).stopAs k (at_ 8 5 ||| at_ 0 8) (8 + 256 * 5)).setCore c { v with asking := true }
      else
      let m2 := m1.modThr k fun t => Thr.awake { t with state := .running, core := c }
      m2.setCore c { v with thr := some k, since := m2.tb, asking := false }

/-! ## Waiting -/

/-- The waited instruction of thread k completes: the thread becomes READY, or stops with the instruction retired when a STOP is pending
(R183, R184). -/
def Mach.waitDone (m : Mach) (k : Nat) (w : Wake) : Mach :=
  if (m.thr k).stopPend then (m.modThr k fun t => Thr.awake { t with wake := w }).stopQuiet k else m.ready k w

/-- The lowest event number that thread k can take now: bound events and mailboxes, a lower mailbox first (R152, R207). -/
def Mach.pendingFor (m : Mach) (k : Nat) : Option (Nat × Option Nat) :=
  let ev := (m.sch.events.find? fun e => e.2.bound && e.2.tcb == k && e.2.pend != 0).map (·.1)
  let bx := (m.mbx.boxes.find? fun b => b.2.bound && b.2.tcb == k && b.2.pend != 0).map (·.1)
  match ev, bx with
  | none, none => none
  | some e, none => some (e, none)
  | none, some b => some (mboxEvent b, some b)
  | some e, some b => if mboxEvent b < e then some (mboxEvent b, some b) else some (e, none)

/-- A pending count is taken. -/
def Mach.takePend (m : Mach) (e : Nat) : Option Nat → Mach
  | none => m.setEvt e { m.evt e with pend := (m.evt e).pend - 1 }
  | some b => m.setBox b { m.box b with pend := (m.box b).pend - 1 }

/-- A held raise is accepted if it can be now (R191, R196). -/
def Mach.acceptHeld (m : Mach) (h : HeldRaise) : Option Mach :=
  match h with
  | .ev e => (m.acceptEv e).map fun m => m.jobEvent e
  | .post e k => (m.acceptEv e).map fun m => m.modThr k Thr.unhold
  | .mbx b o => (m.acceptMbx b).map fun m => match o with
    | some k => m.modThr k Thr.unhold
    | none => m.answer .done
  | .ready k => if (m.thr k).stopPend then some ((m.modThr k Thr.awake).stopQuiet k) else m.makeReady k (m.thr k).wake

/-! ## Events, timers, windows (R192 to R199) -/

/-- SCH_EVT_e as it reads (R192). -/
def Evt.word (e : Evt) : W64 :=
  flagAt 63 e.bound ||| flagAt 62 e.deleg ||| flagAt 61 e.assigned ||| at_ 48 e.slice ||| at_ 32 e.tcb ||| at_ 0 e.pend

/-- Is e a software event? -/
def softEvent (e : Nat) : Bool := 928 ≤ e && e ≤ 991

/-- A write to SCH_EVT_e (R192). -/
def Mach.evtWrite (m : Mach) (w : Who) (e : Nat) (v : W64) : Mach × RegOut :=
  let o := m.evt e
  let b := bit v 63
  let asg := bit v 61
  let t := m.thr (fld v 43 32)
  let own := softEvent e && asg && fld v 55 48 == t.slice
  let ok := !(b && (t.state == .free || decide (m.tcbTotal ≤ fld v 43 32))) && !(b && t.ofSlice && !own) && !(asg && !softEvent e) &&
    !(b && decide (800 ≤ e ∧ e ≤ 863))
  m.writeReg w (schReg (0x10000 + 8 * e)) v (rsvBits [(63, 61), (55, 48), (43, 32), (15, 0)]) (w.zero || (w.ring == .r1 && o.deleg)) ok
    fun m => m.setEvt e { o with bound := b, deleg := if w.zero then bit v 62 else o.deleg, assigned := asg, slice := fld v 55 48,
                                  tcb := fld v 43 32 }

/-- Timer k. -/
def Mach.tmr (m : Mach) (k : Nat) : Tmr := tget Tmr.reset m.sch.timers k
def Mach.setTmr (m : Mach) (k : Nat) (t : Tmr) : Mach := { m with sch := { m.sch with timers := tset m.sch.timers k t } }

/-- A timer whose compare value the time base has reached raises its event once (R198). -/
def Mach.fireTmr (m : Mach) (k : Nat) : Mach :=
  let t := m.tmr k
  if t.armed && decide (t.cmp.toNat ≤ m.tb) then (m.setTmr k { t with armed := false }).raise (864 + k) else m

/-- A write to SCH_TMR_k: rings 0 and 1 (R198). -/
def Mach.tmrWrite (m : Mach) (w : Who) (k : Nat) (v : W64) : Mach × RegOut :=
  m.writeReg w (schReg (0x200 + 8 * k)) v 0 w.low true fun m => (m.setTmr k { cmp := v, armed := true }).fireTmr k

/-- A write to SCH_OBS_START or SCH_OBS_END opens a new window (R199). -/
def Mach.obsWrite (m : Mach) (w : Who) (isEnd : Bool) (v : W64) : Mach × RegOut :=
  m.writeReg w (schReg (if isEnd then 0x108 else 0x100)) v 0 w.low true fun m =>
    let h := m.sch
    { m with sch := { h with
        obsStart := if isEnd then h.obsStart else v
        obsEnd := if isEnd then v else h.obsEnd
        obsDone := false
        obsOpen := true
        busy := []
        slobs := h.slobs.map fun e => (e.1, { e.2 with busy := 0 })
        cores := h.cores.map fun e => (e.1, if e.2.thr.isSome then { e.2 with since := m.tb } else e.2) } }

/-- Live ticks of the thread on core c that lie in the window. -/
def Mach.liveBusy (m : Mach) (c : Nat) : Nat :=
  if (m.core c).thr.isSome then overlapTicks (m.core c).since m.tb m.sch.obsStart.toNat m.sch.obsEnd.toNat else 0

/-- SCH_BUSY_c as it reads. -/
def Mach.busyWord (m : Mach) (c : Nat) : W64 := w64 (tget 0 m.sch.busy c + m.liveBusy c)

/-- A read of SCH_RDY_g_l: MAX restarts at the depth it now has (R13, R199). -/
def Mach.rdyRead (m : Mach) (g l : Nat) : Mach × W64 :=
  let d := m.depth g l
  ({ m with sch := { m.sch with rdyMax := tset m.sch.rdyMax (32 * g + l) d } }, at_ 16 (tget 0 m.sch.rdyMax (32 * g + l)) ||| at_ 0 d)

/-- A read of SCH_SLOBS_s. -/
def Mach.slobsRead (m : Mach) (s : Nat) : Mach × W64 :=
  let o := tget SlObs.reset m.sch.slobs s
  let n := m.readyOf s
  let live := ((List.range 64).map fun c => match (m.core c).thr with
    | some k => if (m.thr k).slice = s then m.liveBusy c else 0
    | none => 0).sum
  ({ m with sch := { m.sch with slobs := tset m.sch.slobs s { o with maxReady := n } } },
   at_ 48 n ||| at_ 32 o.maxReady ||| at_ 0 (sat (2 ^ 32 - 1) (o.busy + live)))

/-! ## Commands -/

/-- SCH_TCB_ALLOC (R177). -/
def execSchTcbAlloc (w : Who) (s : State) : Host.Outcome State Fault Refusal := s.access fun m => m.tcbAllocRead w none

/-- SCH_TCB_ALLOC_SLICE (R177). -/
def execSchTcbAllocSlice (w : Who) (sl : Fin 256) (s : State) : Host.Outcome State Fault Refusal :=
  s.access fun m => m.tcbAllocRead w (some sl)

/-- START (R182). -/
def execStart (w : Who) (k : Fin 4096) (s : State) : Host.Outcome State Fault Refusal :=
  s.access fun m => m.schCtlWrite w (ctlWord 1 k)

/-- STOP (R183). -/
def execStop (w : Who) (k : Fin 4096) (s : State) : Host.Outcome State Fault Refusal :=
  s.access fun m => m.schCtlWrite w (ctlWord 2 k)

/-- RESTART (R181). -/
def execRestart (w : Who) (k : Fin 4096) (s : State) : Host.Outcome State Fault Refusal :=
  s.access fun m => m.schCtlWrite w (ctlWord 3 k)

/-- DELETE (R185). -/
def execDelete (w : Who) (k : Fin 4096) (s : State) : Host.Outcome State Fault Refusal :=
  s.access fun m => m.schCtlWrite w (ctlWord 4 k)

/-- TCB_PRIO_WRITE (R190). -/
def execTcbPrioWrite (w : Who) (k : Fin 4096) (v : W64) (s : State) : Host.Outcome State Fault Refusal :=
  s.access fun m => m.tcbWrite w k 0 v

/-- TCB_FIELD_WRITE (R180). -/
def execTcbFieldWrite (w : Who) (k : Fin 4096) (r : Fin 16) (v : W64) (s : State) : Host.Outcome State Fault Refusal :=
  s.access fun m => m.tcbWrite w k r v

/-- CORE_ASK_WORK (R187, R188). -/
def execCoreAskWork (c : Fin 72) (s : State) : Host.Outcome State Fault Refusal := s.act fun m => m.fabric fun m => m.ask c

/-- HELD_RAISE_ACCEPT (R196): held raise n is accepted once room exists. -/
def execHeldRaiseAccept (n : Nat) (s : State) : Host.Outcome State Fault Refusal :=
  s.act fun m => m.fabric fun m =>
    match m.sch.held[n]? with
    | none => m
    | some h => (Mach.acceptHeld { m with sch := { m.sch with held := dropAt m.sch.held n } } h).getD m

/-- SCH_EVT_WRITE (R192). -/
def execSchEvtWrite (w : Who) (e : Fin 1024) (v : W64) (s : State) : Host.Outcome State Fault Refusal :=
  s.access fun m => m.evtWrite w e v

/-- SCH_TMR_WRITE (R198). -/
def execSchTmrWrite (w : Who) (k : Fin 16) (v : W64) (s : State) : Host.Outcome State Fault Refusal :=
  s.access fun m => m.tmrWrite w k v

/-- TIMER_EXPIRE (R198). -/
def execTimerExpire (k : Fin 16) (s : State) : Host.Outcome State Fault Refusal := s.act fun m => m.fabric fun m => m.fireTmr k

/-- SLEEP_WAKE (R155): the time base has reached the sleeper's deadline. -/
def execSleepWake (k : Fin 4096) (s : State) : Host.Outcome State Fault Refusal :=
  s.act fun m => m.fabric fun m =>
    let t := m.thr k
    if t.state == .waiting && t.waitKind == .sleep && decide (t.deadline ≤ m.tb) && !m.readyHeld k then m.ready k .slept else m

/-- OBS_WINDOW_WRITE (R199). -/
def execObsWindowWrite (w : Who) (isEnd : Bool) (v : W64) (s : State) : Host.Outcome State Fault Refusal :=
  s.access fun m => m.obsWrite w isEnd v

/-- OBS_WINDOW_CLOSE (R199): the time base has reached the end of the open window. -/
def execObsWindowClose (s : State) : Host.Outcome State Fault Refusal :=
  s.act fun m => m.fabric fun m =>
    if m.sch.obsOpen && decide (m.sch.obsEnd.toNat ≤ m.tb) then
      Mach.raise { m with sch := { m.sch with obsDone := true, obsOpen := false } } 884
    else m

/-- WAITWORK (R152): a pending bound event is taken at once; else the thread leaves its core and waits. A filter thread's WAITWORK ends
its spikelet: it never completes, and counts as one instruction as the thread leaves (R491, R494). -/
def execWaitwork (c : Fin 72) (gd : BitVec 4) (rd : BitVec 5) (s : State) : Host.Outcome State Fault Refusal :=
  s.act fun m => m.insn c gd (.waitwork c gd rd) fun m k =>
    if (m.insnMax k).isSome then
      .stay ((m.modThr k fun t => { t with waitRd := rd, retired := t.retired + 1 }).leaveCore k .waitwork)
    else match m.pendingFor k with
      | some (e, b) => .done ((m.takePend e b).modThr k fun t => t.gw rd (w64 e))
      | none => .stay ((m.modThr k fun t => { t with waitRd := rd }).leaveCore k .waitwork)

/-- YIELD (R153): the thread goes to the tail of its level's list, and its core asks for work. A pending STOP takes effect (R183). -/
def execYield (c : Fin 72) (gd : BitVec 4) (s : State) : Host.Outcome State Fault Refusal :=
  s.act fun m => m.insn c gd (.yield c gd) fun m k =>
    let m1 := m.freeCore (m.thr k).core
    if (m.thr k).stopPend then .stay ((m1.modThr k fun t => t.retire.advance).stopQuiet k)
    else .stay ((m1.modThr k fun t => { t with state := .waiting, waitKind := .none }).ready k .yielded)

/-- POST (R154): a software event, in ring 2 one assigned to the slice; held while it cannot be accepted (R196). -/
def execPost (c : Fin 72) (gd : BitVec 4) (ra : BitVec 5) (s : State) : Host.Outcome State Fault Refusal :=
  s.act fun m => m.insn c gd (.post c gd ra) fun m k =>
    let t := m.thr k
    let e := (t.gr ra).toNat
    let own := (m.evt e).assigned && (m.evt e).slice == t.slice
    if !softEvent e || (t.ring == .r2 && !own) then .exc m 3 5 0
    else match m.acceptEv e with
      | some m1 => .done m1
      | none => .stay ((m.modThr k fun t => { t with hold := .post e }).holdRaise (.post e k))

/-- SLEEP (R155). -/
def execSleep (c : Fin 72) (gd : BitVec 4) (ra : BitVec 5) (s : State) : Host.Outcome State Fault Refusal :=
  s.act fun m => m.insn c gd (.sleep c gd ra) fun m k =>
    let d := ((m.thr k).gr ra).toNat
    if d ≤ m.tb then .done m
    else .stay ((m.modThr k fun t => { t with deadline := d }).leaveCore k .sleep)

end Sys2Proof.Machine
end

