-- ==== Sys2Proof/Machine/Mailbox.lean ====
section
/-! DEFINITION. Mailboxes and lock registers (R201 to R213, R639). -/

namespace Sys2Proof.Machine

/-- Address of an MBX register. -/
def mbxReg (off : Nat) : Nat := 0x200300000 + off
/-- Address of register r of mailbox k (R202). -/
def boxReg (k r : Nat) : Nat := mbxReg (0x10000 + 0x40 * k + 8 * r)

/-- Does a party admit a requester (R201)? A party of ring 1 admits ring 0 as well. -/
def Party.admits (p : Party) (w : Who) : Bool :=
  match p with
  | .ring0 => w.zero
  | .ring1 => w.low
  | .slice s => w.of s

/-- Is thread t of a party? -/
def Party.has (p : Party) (t : Thr) : Bool :=
  match p with
  | .ring0 => !t.ofSlice && t.ring == .r0
  | .ring1 => !t.ofSlice
  | .slice s => t.ofSlice && t.slice == s

/-- May the mailbox post this value: an address in the granary or in DRAM (R203)? -/
def postable (v : W64) : Bool :=
  (decide (0x100000000 ≤ v.toNat) && decide (v.toNat < 0x103000000)) || (decide (0x1000000000 ≤ v.toNat) && decide (v.toNat < 0x1800000000))

/-- The timeout window of a message that stands untaken has ended: TIMEOUT sets and event 883 is raised (R205). -/
def Mach.boxTimeout (m : Mach) (k : Nat) : Mach :=
  let b := m.box k
  match b.window with
  | some (_, e) => if b.full && decide (e ≤ m.tb) then (m.setBox k { b with timeout := true, window := none }).raise 883 else m
  | none => m

/-- n increases of a mailbox's PEND, each a raise toward its bound thread; those that cannot be accepted are held, the last with the
sender (R196, R207). Says whether any is held. -/
def Mach.bump (m : Mach) (k : Nat) (thread : Option Nat) : Nat → Mach × Bool
  | 0 => (m, false)
  | n + 1 =>
    match m.acceptMbx k with
    | some m1 => Mach.bump m1 k thread n
    | none => ((List.range n).foldl (fun m _ => m.holdRaise (.mbx k none)) m |>.holdRaise (.mbx k thread), true)

/-- A store whose raise may be held: the sender's thread then holds its core. -/
def Mach.bumpOut (m : Mach) (k : Nat) (thread : Option Nat) (n : Nat) : Mach × RegOut :=
  let r := m.bump k thread n
  if r.2 then
    (match thread with
     | some t => r.1.modThr t fun t => { t with hold := .mbox k }
     | none => r.1, .hold)
  else (r.1, .done)

/-- A write to MBX_m_POST (R203). -/
def Mach.boxPost (m : Mach) (w : Who) (thread : Option Nat) (k : Nat) (v : W64) : Mach × RegOut :=
  if !(m.box k).snd.admits w then (m, .denied 2)
  else if !postable v then (m.setBox k { m.box k with badptr := true }, .done)
  else if (m.box k).full then (m.setBox k { m.box k with overrun := true }, .done)
  else
    let b := m.box k
    (m.setBox k { b with msg := v, full := true, window := some (m.tb, m.tb + b.tmo) }).bumpOut k thread 1

/-- A read of MBX_m_TAKE (R204). -/
def Mach.boxTake (m : Mach) (w : Who) (k : Nat) : Mach × RegOut :=
  if !(m.box k).rcv.admits w then (m, .denied 1)
  else
    let m1 := m.boxTimeout k
    let b := m1.box k
    (m1.setBox k { b with msg := 0, full := false, window := none }, .value (if b.full then b.msg else 0))

/-- A write to MBX_m_DBSET (R206). -/
def Mach.boxBells (m : Mach) (w : Who) (thread : Option Nat) (k : Nat) (v : W64) : Mach × RegOut :=
  let b := m.box k
  if !b.snd.admits w then (m, .denied 2)
  else
    let v32 : W32 := v.setWidth 32
    let fresh := v32 &&& ~~~b.bells &&& ~~~b.dbmask
    let r := (m.setBox k { b with bells := b.bells ||| v32 }).bumpOut k thread (popCount (fresh.setWidth 64))
    (if v &&& rsvBits [(31, 0)] = 0 then r.1 else r.1.rsvd w (boxReg k 3) false, r.2)

/-- A read of MBX_m_DBREAD (R206). -/
def Mach.boxDbread (m : Mach) (w : Who) (k : Nat) : Mach × RegOut :=
  let b := m.box k
  if !b.rcv.admits w then (m, .denied 1) else (m.setBox k { b with bells := 0 }, .value (b.bells.setWidth 64))

/-- A write to MBX_m_DBMASK: a set bit that it unmasks raises the summary (R206). -/
def Mach.boxMask (m : Mach) (w : Who) (thread : Option Nat) (k : Nat) (v : W64) : Mach × RegOut :=
  let b := m.box k
  if !b.rcv.admits w then (m, .denied 2)
  else
    let v32 : W32 := v.setWidth 32
    let fresh := b.bells &&& b.dbmask &&& ~~~v32
    let r := (m.setBox k { b with dbmask := v32 }).bumpOut k thread (popCount (fresh.setWidth 64))
    (if v &&& rsvBits [(31, 0)] = 0 then r.1 else r.1.rsvd w (boxReg k 5) false, r.2)

/-- A write to MBX_m_STAT: the sender clears flags (R202). -/
def Mach.boxStatWrite (m : Mach) (w : Who) (k : Nat) (v : W64) : Mach × RegOut :=
  let b := m.box k
  m.writeReg w (boxReg k 2) v (rsvBits [(63, 60), (15, 0)]) (b.snd.admits w) true fun m =>
    m.setBox k { b with overrun := b.overrun && !bit v 62, timeout := b.timeout && !bit v 61, badptr := b.badptr && !bit v 60 }

/-- A write to MBX_m_TMO: rings 0 and 1 (R202). -/
def Mach.boxTmo (m : Mach) (w : Who) (k : Nat) (v : W64) : Mach × RegOut :=
  let n := fld v 31 0
  m.writeReg w (boxReg k 6) v (rsvBits [(31, 0)]) w.low (10000 ≤ n ∧ n ≤ 1000000000) fun m => m.setBox k { m.box k with tmo := n }

/-- The two fields of MBX_m_BIND that name a party. -/
def Party.bits (p : Party) : Nat × Nat :=
  match p with
  | .ring0 => (0, 0)
  | .ring1 => (1, 0)
  | .slice s => (2, s)

/-- The party that a ring code and a slice name; none for the reserved code. -/
def partyOf (code s : Nat) : Option Party :=
  match code with
  | 0 => some .ring0
  | 1 => some .ring1
  | 2 => some (.slice s)
  | _ => none

/-- MBX_m_BIND as it reads (R207). -/
def Box.bindWord (b : Box) : W64 :=
  flagAt 63 b.bound ||| at_ 40 b.tcb ||| at_ 30 b.snd.bits.1 ||| at_ 22 b.snd.bits.2 ||| at_ 20 b.rcv.bits.1 ||| at_ 12 b.rcv.bits.2

/-- MBX_m_STAT as it reads (R202). -/
def Box.statWord (b : Box) : W64 :=
  flagAt 63 b.full ||| flagAt 62 b.overrun ||| flagAt 61 b.timeout ||| flagAt 60 b.badptr ||| at_ 0 b.pend

/-- A write to MBX_m_BIND (R207): ring 0 sets the parties of an internal mailbox. -/
def Mach.boxBind (m : Mach) (w : Who) (k : Nat) (v : W64) : Mach × RegOut :=
  let b := m.box k
  let free := decide (512 ≤ k) && w.zero
  let snd := if free then partyOf (fld v 31 30) (fld v 29 22) else some b.snd
  let rcv := if free then partyOf (fld v 21 20) (fld v 19 12) else some b.rcv
  let may := w.zero || (w.ring == .r1 && b.rcv != .ring0)
  let t := m.thr (fld v 51 40)
  let fit := match rcv with
    | some p => !bit v 63 || (t.state != .free && p.has t)
    | none => false
  let rsv := rsvBits [(63, 63), (51, 40), (31, 12)]
  m.writeReg w (boxReg k 7) v rsv may (snd.isSome && fit) fun m =>
    m.setBox k { b with bound := bit v 63, tcb := fld v 51 40, snd := snd.getD b.snd, rcv := rcv.getD b.rcv }

/-- Clearing mailbox k (R639): in one step; a held raise of it lands before, and is cleared with the rest. -/
def Mach.clearBox (m : Mach) (k : Nat) : Mach :=
  let mine := fun (h : HeldRaise) => match h with | .mbx j _ => j == k | _ => false
  let m1 := (m.sch.held.filter mine).foldl (fun m h => match h with
    | .mbx _ (some t) => m.modThr t Thr.unhold
    | _ => m) m
  let m2 := { m1 with sch := { m1.sch with held := m1.sch.held.filter fun h => !mine h } }
  let b := m2.box k
  m2.setBox k { Box.reset k with snd := b.snd, rcv := b.rcv }

/-! ## Locks (R42, R209 to R213) -/

/-- May a requester use lock n (R210)? -/
def Lock.opens (l : Lock) (w : Who) : Bool := w.low || (l.assigned && w.of l.slice)

/-- A read of LOCKn (R42): a free lock is taken and reads 0; an owned one reads its owner with bit 63 set. -/
def Mach.lockRead (m : Mach) (w : Who) (n : Nat) : Mach × RegOut :=
  let l := m.lock n
  if !l.opens w then (m, .denied 1)
  else if l.owner = 0 then (m.setLock n { l with owner := w.ident }, .value 0)
  else (m, .value (l.owner ||| flagAt 63 true))

/-- A write to LOCKn (R42, R212): the owner's write of its identity frees the lock; any other is ignored, counted and reported. -/
def Mach.lockWrite (m : Mach) (w : Who) (n : Nat) (v : W64) : Mach × RegOut :=
  let l := m.lock n
  if !l.opens w then (m, .denied 2)
  else if l.owner = w.ident ∧ v = l.owner then (m.setLock n { l with owner := 0 }, .done)
  else (Mach.raise { m with mbx := { m.mbx with lockFault := sat (2 ^ 32 - 1) (m.mbx.lockFault + 1) } } 885, .done)

/-- MBX_LOCKCFG_n as it reads (R211). -/
def Lock.word (l : Lock) : W64 := flagAt 63 l.assigned ||| at_ 48 l.slice ||| at_ 0 (fld l.owner 32 0)

/-- A write to MBX_LOCKCFG_n (R211): FORCE frees the lock first; then an assignment is judged against the lock as it stands. -/
def Mach.lockCfg (m : Mach) (w : Who) (n : Nat) (v : W64) : Mach × RegOut :=
  if !w.low then (m, .denied 2)
  else
    let m1 := if bit v 62 then m.setLock n { m.lock n with owner := 0 } else m
    let l := m1.lock n
    let same := l.assigned == bit v 63 && l.slice == fld v 55 48
    m1.writeReg w (mbxReg (0x800 + 8 * n)) v (rsvBits [(63, 62), (55, 48), (32, 0)]) true (l.owner == 0 || same) fun m =>
      m.setLock n { l with assigned := bit v 63, slice := fld v 55 48 }

/-! ## Commands -/

/-- MBX_POST (R203). -/
def execMbxPost (w : Who) (m : Fin 576) (v : W64) (s : State) : Host.Outcome State Fault Refusal :=
  s.access fun x => x.boxPost w none m v

/-- MBX_TAKE (R204). -/
def execMbxTake (w : Who) (m : Fin 576) (s : State) : Host.Outcome State Fault Refusal := s.access fun x => x.boxTake w m

/-- MBX_DBSET (R206). -/
def execMbxDbset (w : Who) (m : Fin 576) (v : W64) (s : State) : Host.Outcome State Fault Refusal :=
  s.access fun x => x.boxBells w none m v

/-- MBX_DBREAD (R206). -/
def execMbxDbread (w : Who) (m : Fin 576) (s : State) : Host.Outcome State Fault Refusal := s.access fun x => x.boxDbread w m

/-- MBX_DBMASK_WRITE (R206). -/
def execMbxDbmaskWrite (w : Who) (m : Fin 576) (v : W64) (s : State) : Host.Outcome State Fault Refusal :=
  s.access fun x => x.boxMask w none m v

/-- MBX_BIND_WRITE (R207). -/
def execMbxBindWrite (w : Who) (m : Fin 576) (v : W64) (s : State) : Host.Outcome State Fault Refusal :=
  s.access fun x => x.boxBind w m v

/-- MBX_TIMEOUT (R205). -/
def execMbxTimeout (m : Fin 576) (s : State) : Host.Outcome State Fault Refusal := s.act fun x => x.fabric fun x => x.boxTimeout m

/-- LOCK_READ (R42). -/
def execLockRead (w : Who) (n : Fin 256) (s : State) : Host.Outcome State Fault Refusal := s.access fun m => m.lockRead w n

/-- LOCK_WRITE (R212). -/
def execLockWrite (w : Who) (n : Fin 256) (v : W64) (s : State) : Host.Outcome State Fault Refusal :=
  s.access fun m => m.lockWrite w n v

/-- MBX_LOCKCFG_WRITE (R211). -/
def execMbxLockcfgWrite (w : Who) (n : Fin 256) (v : W64) (s : State) : Host.Outcome State Fault Refusal :=
  s.access fun m => m.lockCfg w n v

/-- LOCK_FORCE (R211): a write with FORCE set. -/
def execLockForce (w : Who) (n : Fin 256) (v : W64) (s : State) : Host.Outcome State Fault Refusal :=
  s.access fun m => m.lockCfg w n (v ||| flagAt 62 true)

end Sys2Proof.Machine
end

