-- ==== Sys2Proof/Machine/Aes.lean ====
section
/-! DEFINITION. AES-256 (FIPS 197), XTS with ciphertext stealing (IEEE 1619), GCM (NIST SP 800-38D) and key unwrapping (SP 800-38F), as the
cipher pairs and the loading paths use them (R423, R431, R433, R454). -/

namespace Sys2Proof.Machine

/-! A state of sixteen bytes, and a round key, is a number with byte i at bits 8i+7 to 8i; a word of the key schedule is one of four. -/

/-- The substitution table of FIPS 197, 32 bytes to a number, byte 0 lowest. -/
def sboxRows : List Nat :=
  [0xC072A49CAFA2D4ADF04759FA7DC982CA76ABD7FE2B670130C56F6BF27B777C63,
   0x75B227EBE28012079A059618C323C7041531D871F1E5A534CCF73F362693FDB7,
   0xCF584C4A39BECB6A5BB1FC20ED00D153842FE329B3D63B52A05A6E1B1A2C8309,
   0xD2F3FF1021DAB6BCF5389D928F40A351A89F3C507F02F94585334D43FBAAEFD0,
   0xDB0B5EDE14B8EE4688902A22DC4F816073195D643D7EA7C41744975FEC130CCD,
   0x08AE7A65EAF4566CA94ED58D6D37C8E779E4959162ACD3C25C2406490A3A32E0,
   0x9E1DC186B95735610EF6034866B53E708A8BBD4B1F74DDE8C6B4A61C2E2578BA,
   0x16BB54B00F2D99416842E6BF0D89A18CDF2855CEE9871E9B948ED9691198F8E1]
/-- The inverse substitution table of FIPS 197, 32 bytes to a number, byte 0 lowest. -/
def invRows : List Nat :=
  [0xCBE9DEC444438E3487FF2F9B8239E37CFBD7F3819EA340BF38A53630D56A0952,
   0x25D18B6D49A25B76B224D92866A12E084EC3FA420B954CEE3D23C2A632947B54,
   0x849D8DA75746155EDAB9EDFD5048706C92B6655DCC5CA4D41698688664F6F872,
   0x6B8A130103BDAFC1020F3FCA8F1E2CD00645B3B80558E4F70AD3BC8C00ABD890,
   0x6EDF751CE837F9E28535ADE72274AC9673E6B4F0CECFF297EADC674F4111913A,
   0xF45ACD78FEC0DB9A2079D2C64B3E56FC1BBE18AA0E62B76F89C5291D711AF147,
   0xEF9CC9939F7AE52D0D4AB519A97F51605FEC8027591012B131C7078833A8DD1F,
   0x7D0C2155631469E126D677BA7E042B17619953833CBBEBC8B0F52AAE4D3BE0A0]
/-- Byte n of a table. -/
def rowByte (t : List Nat) (n : Nat) : Nat := ((t[n / 32]?).getD 0 >>> (8 * (n % 32))) % 256
/-- Byte i of a number. -/
def byteOf (x i : Nat) : Nat := (x >>> (8 * i)) % 256
/-- Substitute byte f i of a number for each byte i of n. -/
def subBytes (t : List Nat) (n : Nat) (f : Nat → Nat) (x : Nat) : Nat :=
  (List.range n).foldl (fun v i => v ^^^ (rowByte t (byteOf x (f i)) <<< (8 * i))) 0
/-- Double each of sixteen bytes in the field of AES. -/
def xtimes (x : Nat) : Nat :=
  ((x &&& 0x7F7F7F7F7F7F7F7F7F7F7F7F7F7F7F7F) <<< 1) ^^^ (((x >>> 7) &&& 0x01010101010101010101010101010101) * 0x1B)
/-- Rotate each column by k bytes: byte i takes byte i + k of its column. -/
def rotCols (k x : Nat) : Nat :=
  ((x >>> (8 * k)) &&& ((2 ^ (32 - 8 * k) - 1) * 0x00000001000000010000000100000001)) |||
    ((x &&& ((2 ^ (8 * k) - 1) * 0x00000001000000010000000100000001)) <<< (32 - 8 * k))
/-- MixColumns: 2, 3, 1, 1. -/
def mixCols (x : Nat) : Nat :=
  xtimes (x ^^^ rotCols 1 x) ^^^ rotCols 1 x ^^^ rotCols 2 x ^^^ rotCols 3 x
/-- InvMixColumns: 14, 11, 13, 9, which is 5, 0, 4, 0 before MixColumns. -/
def unmixCols (x : Nat) : Nat := mixCols (x ^^^ xtimes (xtimes (x ^^^ rotCols 2 x)))

/-- XOR of two byte lists. -/
def xorB (a b : List Byte) : List Byte := (a.zip b).map fun x => x.1 ^^^ x.2

/-- One more word of the AES-256 key schedule; the words stand newest first. -/
def keyStep (s : List Nat × Nat) : List Nat × Nat :=
  let i := s.1.length
  let t := (s.1[0]?).getD 0
  let (u, rc) := if i % 8 = 0 then (subBytes sboxRows 4 (fun j => (j + 1) % 4) t ^^^ s.2, 2 * s.2)
    else if i % 8 = 4 then (subBytes sboxRows 4 id t, s.2) else (t, s.2)
  (((s.1[7]?).getD 0 ^^^ u) :: s.1, rc)

/-- The fifteen round keys of a 32-byte key. -/
def aesKeys (key : BitVec 256) : List Nat :=
  let ws := (iter keyStep 52 (((List.range 8).map fun i => (key.toNat >>> (32 * i)) % 2 ^ 32).reverse, 1)).1.reverse
  (List.range 15).map fun r => (List.range 4).foldl (fun v i => v + (ws.getD (4 * r + i) 0 <<< (32 * i))) 0

/-- SubBytes and ShiftRows. -/
def subShift (x : Nat) : Nat := subBytes sboxRows 16 (fun i => (i + 4 * (i % 4)) % 16) x
/-- InvShiftRows and InvSubBytes. -/
def unsubShift (x : Nat) : Nat := subBytes invRows 16 (fun i => (i + 12 * (i % 4)) % 16) x

/-- Encrypt one 16-byte block under expanded keys. -/
def aesEnc (ks : List Nat) (b : List Byte) : List Byte :=
  let s := ((ks.drop 1).take 13).foldl (fun s k => mixCols (subShift s) ^^^ k) (leNat b ^^^ ks.getD 0 0)
  leBytes 16 (subShift s ^^^ ks.getD 14 0)

/-- Decrypt one 16-byte block under expanded keys. -/
def aesDec (ks : List Nat) (b : List Byte) : List Byte :=
  let s := ((ks.drop 1).take 13).foldr (fun k s => unmixCols (unsubShift s ^^^ k)) (leNat b ^^^ ks.getD 14 0)
  leBytes 16 (unsubShift s ^^^ ks.getD 0 0)

/-! ## XTS (R431) -/

/-- Multiply a tweak by the primitive element. -/
def xtsNext (t : Nat) : Nat := if t < 2 ^ 127 then 2 * t else ((2 * t) % 2 ^ 128) ^^^ 0x87

/-- One block of XTS. -/
def xtsBlock (f : List Byte → List Byte) (t : Nat) (b : List Byte) : List Byte :=
  let tb := leBytes 16 t
  xorB (f (xorB b tb)) tb

/-- Whole blocks of XTS from a tweak; gives the tweak after them. -/
def xtsRun (f : List Byte → List Byte) : Nat → Nat → List Byte → List Byte × Nat
  | 0, t, _ => ([], t)
  | n + 1, t, b =>
    let (r, t') := xtsRun f n (xtsNext t) (b.drop 16)
    (xtsBlock f t (b.take 16) ++ r, t')

/-- One data unit of at least 16 bytes: key 1 and key 2, encrypting or decrypting; the last partial block steals ciphertext. -/
def xtsUnit (enc : Bool) (k1 k2 : List Nat) (tweak : Nat) (b : List Byte) : List Byte :=
  let f := if enc then aesEnc k1 else aesDec k1
  let t0 := leNat (aesEnc k2 (leBytes 16 tweak))
  let n := b.length / 16
  let r := b.length % 16
  if r = 0 then (xtsRun f n t0 b).1
  else
    let (body, t) := xtsRun f (n - 1) t0 b
    let last := (b.drop (16 * (n - 1))).take 16
    let part := b.drop (16 * n)
    let (ta, tb) := if enc then (t, xtsNext t) else (xtsNext t, t)
    let x := xtsBlock f ta last
    body ++ xtsBlock f tb (part ++ x.drop r) ++ x.take r

/-- Data units of a run of bytes, unit u under the tweak value tweak + u (R431). -/
def xts (enc : Bool) (key1 key2 : BitVec 256) (du tweak : Nat) (b : List Byte) : List Byte :=
  let k1 := aesKeys key1
  let k2 := aesKeys key2
  (List.range (ceilDiv b.length du)).flatMap fun u =>
    xtsUnit enc k1 k2 ((tweak + u) % 2 ^ 128) ((b.drop (du * u)).take du)

/-! ## GCM (R433) -/

/-- Multiply in the field of GHASH; bit 127 of the value is the first bit of the block. -/
def ghashMul (x y : BitVec 128) : BitVec 128 :=
  ((List.range 128).foldl (fun (s : BitVec 128 × BitVec 128) i =>
    (if x.getLsbD (127 - i) then s.1 ^^^ s.2 else s.1,
     (s.2 >>> 1) ^^^ (if s.2.getLsbD 0 then 0xE1000000000000000000000000000000 else 0))) (0, y)).1

/-- GHASH of bytes that fill whole blocks. -/
def ghash (h : BitVec 128) (b : List Byte) : BitVec 128 :=
  (List.range (b.length / 16)).foldl (fun y i => ghashMul (y ^^^ BitVec.ofNat 128 (beNat ((b.drop (16 * i)).take 16))) h) 0

/-- Zero bytes up to a multiple of 16. -/
def pad16 (b : List Byte) : List Byte := b ++ zeros ((16 - b.length % 16) % 16)

/-- Counter mode from counter value c of an IV. -/
def gctr (ks : List Nat) (iv : List Byte) (c : Nat) (b : List Byte) : List Byte :=
  (List.range (ceilDiv b.length 16)).flatMap fun i =>
    xorB ((b.drop (16 * i)).take 16) (aesEnc ks (iv ++ beBytes 4 ((c + i) % 2 ^ 32)))

/-- The tag over AAD and ciphertext. -/
def gcmTag (key : BitVec 256) (iv aad c : List Byte) : List Byte :=
  let ks := aesKeys key
  let h := BitVec.ofNat 128 (beNat (aesEnc ks (zeros 16)))
  let s := ghash h (pad16 aad ++ pad16 c ++ beBytes 8 (8 * aad.length) ++ beBytes 8 (8 * c.length))
  gctr ks iv 1 (beBytes 16 s.toNat)

/-- The keystream of GCM over a message, either way. -/
def gcmCrypt (key : BitVec 256) (iv b : List Byte) : List Byte := gctr (aesKeys key) iv 2 b

/-! ## Key unwrapping (R454) -/

/-- One step of SP 800-38F KW unwrapping, step t over n 8-byte registers. -/
def kwStep (ks : List Nat) (n : Nat) (s : List Byte × List (List Byte)) (t : Nat) : List Byte × List (List Byte) :=
  let i := (t - 1) % n
  let b := aesDec ks (xorB s.1 (beBytes 8 t) ++ (s.2[i]?).getD [])
  (b.take 8, s.2.set i (b.drop 8))

/-- Unwrap 40 bytes under a key: the 32-byte value, or none when the integrity check fails. -/
def kwUnwrap (kek : BitVec 256) (c : List Byte) : Option (BitVec 256) :=
  let ks := aesKeys kek
  let r := (List.range 4).map fun i => (c.drop (8 * (i + 1))).take 8
  let (a, r) := ((List.range 24).map fun j => 24 - j).foldl (kwStep ks 4) (c.take 8, r)
  if a = List.replicate 8 0xA6 ∧ c.length = 40 then some (BitVec.ofNat 256 (leNat r.flatten)) else none

end Sys2Proof.Machine
end

