-- ==== Sys2Proof/Machine/Caches.lean ====
section
/-! DEFINITION. Ordering and cache-range instructions, the prefetcher, eviction, the cache registers, the chaff table and the scrubber
(R156 to R159, chapter 15). -/

namespace Sys2Proof.Machine

/-! ## Range operations (R158, R159) -/

/-- What a range operation meets at a line. -/
inductive LineTurn where
  | act
  | skip
  | exc (cause detail : Nat)
deriving DecidableEq, Repr

/-- Judge the line at an address for thread k (R159, R175, R436). -/
def Mach.lineTurn (m : Mach) (k : Nat) (need : Need) (a : Nat) : LineTurn :=
  let low := (m.thr k).ring != .r2
  let byWindow : LineTurn := match m.windowByte k need a with
    | some d => .exc 3 d
    | none => if (m.rangeBus true a 64).isSome then .exc 5 1 else .act
  match regionOf a with
  | .rom | .fwa => if low then .skip else byWindow
  | .granary | .dram _ => byWindow
  | _ => if low then .exc 5 1 else byWindow

/-- Range registers after the line at base (R158). -/
def Thr.rangeStep (t : Thr) (ra rb : BitVec 5) (base : Nat) : Thr :=
  let stop := (t.gr ra).toNat + (t.gr rb).toNat
  let next := 64 * base + 64
  (t.gw ra (w64 next)).gw rb (w64 (stop - next))

/-- A range operation line by line in ascending order, at most `n` lines. -/
def rangeLoop (c k : Nat) (need : Need) (ra rb : BitVec 5) (op : Mach → Nat → Mach) : Nat → Mach → Res
  | 0, m => .done m
  | n + 1, m =>
    let t := m.thr k
    if t.gr rb = 0 then .done m
    else
      let base := (t.gr ra).toNat / 64
      match m.lineTurn k need (64 * base) with
      | .exc x d => .exc m x d (w64 (64 * base))
      | .skip => rangeLoop c k need ra rb op n (m.modThr k fun t => t.rangeStep ra rb base)
      | .act => rangeLoop c k need ra rb op n ((op m base).modThr k fun t => t.rangeStep ra rb base)

/-- Lines that a range operation can meet. -/
def Mach.rangeLines (m : Mach) (k : Nat) (ra rb : BitVec 5) : Nat :=
  (((m.thr k).gr ra).toNat % 64 + ((m.thr k).gr rb).toNat) / 64 + 2

/-! ## Shared caches at work -/

/-- The prefetcher of a sheaf takes up to n further lines of the page after three ascending misses (R517). -/
def Mach.prefetchLines (m : Mach) (x k : Nat) : Nat → Nat → Mach
  | 0, _ => m
  | n + 1, base =>
    if base % 64 = 0 then m
    else
      let c := m.shared x
      let a := 64 * base
      let fits := inStore a && (m.windowByte k .read a).isNone && (c.find base).isNone && (c.buffered base).isNone
      if fits && (m.peekLine base).isSome && (m.storeReady a == .ok []) then
        match m.missRead a with
        | (m1, _, some b) => Mach.prefetchLines (m1.fillShared x 9 (Line.make base 0 false b)).1 x k n (base + 1)
        | (m1, _, none) => m1
      else Mach.prefetchLines m x k n (base + 1)

/-- The oldest line of a cache's eviction buffer lands in memory (R519). -/
def Mach.landOldest (m : Mach) (x : Nat) : Mach :=
  let c := m.shared x
  match c.evict with
  | [] => m
  | l :: t => (m.setShared x { c with evict := t }).landLine x l

/-! ## CCH registers (R518) -/

/-- Address of a CCH register of shared cache x. -/
def cchReg (x off : Nat) : Nat := 0x200D00000 + 0x100 * x + off

/-- A read of a CCH register. -/
def Mach.cchRead (m : Mach) (w : Who) (x off : Nat) : Mach × RegOut :=
  let c := m.shared x
  if !w.low then (m, .denied 1)
  else if off < 0x50 then
    (m, .value (if x = 8 ∧ 0x48 ≤ off then 0 else (tget 0xFFFF c.masks (off / 8)).setWidth 64))
  else if off = 0x50 then (m, .value (c.lock.setWidth 64))
  else if off = 0x58 then (m.setShared x { c with hit := 0, miss := 0 }, .value (at_ 32 c.hit ||| at_ 0 c.miss))
  else (m, .value 0)

/-- A write of a CCH register. -/
def Mach.cchWrite (m : Mach) (w : Who) (x off : Nat) (v : W64) : Mach × RegOut :=
  let c := m.shared x
  let a := cchReg x off
  if off < 0x50 ∧ ¬ (x = 8 ∧ 0x48 ≤ off) then
    m.writeReg w a v (rsvBits [(15, 0)]) w.low true fun m => m.setShared x { c with masks := tset c.masks (off / 8) (v.setWidth 16) }
  else if off = 0x50 then
    m.writeReg w a v (rsvBits [(15, 0)]) w.low true fun m => m.setShared x { c with lock := v.setWidth 16 }
  else if off = 0x58 then m.idleWrite w a v 0
  else m.idleWrite w a v (BitVec.allOnes 64)

/-! ## The scrubber (R530 to R533) -/

/-- Address of an ECC register. -/
def eccReg (off : Nat) : Nat := 0x200E00000 + off

def Mach.setScrub (m : Mach) (s : Scrub) : Mach := { m with ecc := { m.ecc with scrub := s } }

/-- Is [a, b) a range that the scrubber may take (R530)? -/
def scrubRange (a b : Nat) : Bool :=
  decide (a < b) &&
  match regionOf a with
  | .granary | .fwa => regionOf (b - 1) == regionOf a
  | .dram q => regionOf (b - 1) == .dram q
  | _ => false

/-- The code of a scrubber mode. -/
def ScrubMode.code : ScrubMode → Nat
  | .survey => 1
  | .repair => 2

/-- A write to ECC_SCRUB_CMD (R530, R532, R533). While the scrubber runs, a STOP must name the mode in force. -/
def Mach.scrubCmd (m : Mach) (w : Who) (v : W64) : Mach × RegOut :=
  let s := m.ecc.scrub
  let md := fld v 57 56
  let mode : ScrubMode := if md = 2 then .repair else .survey
  let modeOk := decide (1 ≤ md ∧ md ≤ 2) && (!s.running || md == s.mode.code)
  let ok := match fld v 63 60 with
    | 1 => modeOk && !s.running && scrubRange s.start s.stop && !(md == 2 && regionOf s.start == .fwa)
    | 2 => modeOk
    | _ => false
  m.writeReg w (eccReg 0x110) v (rsvBits [(63, 60), (57, 56), (15, 0)]) w.low ok fun m =>
    let m1 := m.setScrub { s with mode := mode, pace := fld v 15 0 }
    if fld v 63 60 = 1 then
      m1.setScrub { s with mode := mode, pace := fld v 15 0, running := true, reached := s.start, nextAt := m.tb, corr := 0, uncorr := 0,
                           caddr := [], uaddr := [] }
    else m1.scrubHalt

/-- Add an address to a list of at most 16. -/
def first16 (l : List Nat) (a : Nat) : List Nat := if l.length < 16 then l ++ [a] else l

/-- One word of a scrub: none if the read must hold. -/
def Mach.scrubWord (m : Mach) (a : Nat) : Option Mach :=
  let seen := m.peekWord a
  match m.readWord a with
  | (_, .wait) => none
  | (m1, .bus _) => some m1
  | (m1, .uncorr _) =>
    let s := m1.ecc.scrub
    some ((m1.setScrub { s with uncorr := s.uncorr + 1, uaddr := first16 s.uaddr a }).raise 684)
  | (m1, .ok b) =>
    match seen with
    | .ok _ lanes =>
      if lanes = 0 then some m1
      else
        let s := m1.ecc.scrub
        let m2 := m1.setScrub { s with corr := s.corr + 1, caddr := first16 s.caddr a }
        some (if s.mode = .repair then m2.putBytes a b else m2)
    | _ => some m1

/-- Scrub n words from an address. -/
def Mach.scrubWords (m : Mach) : Nat → Nat → Option Mach
  | 0, _ => some m
  | n + 1, a => (m.scrubWord a).bind fun m1 => Mach.scrubWords m1 n (a + 8)

/-- The scrubber takes its next 64 B (R530 to R532). -/
def Mach.scrubStep (m : Mach) : Mach :=
  let s := m.ecc.scrub
  if s.running && decide (s.nextAt ≤ m.tb) then
    match m.scrubWords 8 s.reached with
    | none => m
    | some m1 =>
      let s1 := m1.ecc.scrub
      let r := s1.reached + 64
      let m2 := m1.setScrub { s1 with reached := r, nextAt := m1.tb + s1.pace }
      if r < s1.stop then m2
      else (m2.setScrub { m2.ecc.scrub with running := false, done := true }).raise 682
  else m

/-! ## ECC registers (R528, R529, R533, R534) -/

/-- A chaff entry as its two words read (R529). -/
def Chaff.word (e : Chaff) (second : Bool) : W64 :=
  if second then at_ 48 e.count ||| at_ 0 e.first.toNat
  else flagAt 63 true ||| at_ 60 e.cls ||| at_ 52 e.lanes.toNat ||| at_ 0 e.loc.toNat

/-- ECC_SELFTEST as it reads (R534). -/
def Ecc.selftest (e : Ecc) : W64 := flagAt 63 e.stDone ||| flagAt 62 e.stFail ||| at_ 56 e.stCls ||| at_ 32 e.stUnit ||| at_ 0 e.stNfail

/-- A read of an ECC register at an offset of the block. -/
def Mach.eccRead (m : Mach) (w : Who) (off : Nat) : Mach × RegOut :=
  let e := m.ecc
  let s := e.scrub
  if !w.low then (m, .denied 1)
  else if off < 0x40 then
    let c := m.eccCnt (off / 8)
    (m.setEccCnt (off / 8) EccCnt.reset, .value (at_ 32 c.corr ||| at_ 16 c.uncorr ||| at_ 0 c.poison))
  else if off = 0x40 then ({ m with ecc := { e with ovf := 0 } }, .value (w64 e.ovf))
  else if off = 0x50 then (m, .value e.selftest)
  else if off = 0x100 then (m, .value (w64 s.start))
  else if off = 0x108 then (m, .value (w64 s.stop))
  else if off = 0x110 then (m, .value (at_ 56 s.mode.code ||| at_ 0 s.pace))
  else if off = 0x118 then (m, .value (flagAt 63 s.running ||| flagAt 62 s.done ||| flagAt 61 s.stopped ||| at_ 0 s.reached))
  else if off = 0x120 then (m, .value (at_ 32 s.corr ||| at_ 0 s.uncorr))
  else if 0x200 ≤ off ∧ off < 0x280 then (m, .value (w64 (s.caddr[(off - 0x200) / 8]?.getD 0)))
  else if 0x280 ≤ off ∧ off < 0x300 then (m, .value (w64 (s.uaddr[(off - 0x280) / 8]?.getD 0)))
  else if 0x1000 ≤ off ∧ off < 0x2000 then
    (m, .value (match tget? e.chaff ((off - 0x1000) / 16) with | some x => x.word (off / 8 % 2 == 1) | none => 0))
  else (m, .value 0)

/-- A write to ECC_CTL: 1 clears the chaff table and its overflow count (R529). -/
def Mach.eccCtl (m : Mach) (w : Who) (v : W64) : Mach × RegOut :=
  m.writeReg w (eccReg 0x48) v (rsvBits [(3, 0)]) w.zero (fld v 3 0 == 1) fun m =>
    { m with ecc := { m.ecc with chaff := [], ovf := 0, ovfSeen := false } }

/-- A write of an ECC register. -/
def Mach.eccWrite (m : Mach) (w : Who) (off : Nat) (v : W64) : Mach × RegOut :=
  let a := eccReg off
  let s := m.ecc.scrub
  if off < 0x40 then m.idleWrite w a v 0
  else if off = 0x40 then m.idleWrite w a v (rsvBits [(31, 0)])
  else if off = 0x48 then m.eccCtl w v
  else if off = 0x50 then m.idleWrite w a v (rsvBits [(63, 62), (58, 56), (39, 32), (7, 0)])
  else if off = 0x100 then m.writeReg w a v (rsvBits [(39, 6)]) w.low (!s.running) fun m => m.setScrub { s with start := fld v 39 6 * 64 }
  else if off = 0x108 then m.writeReg w a v (rsvBits [(39, 6)]) w.low (!s.running) fun m => m.setScrub { s with stop := fld v 39 6 * 64 }
  else if off = 0x110 then m.scrubCmd w v
  else if off = 0x118 then
    m.writeReg w a v (rsvBits [(63, 61), (39, 0)]) w.low true fun m =>
      m.setScrub { s with done := s.done && !bit v 62, stopped := s.stopped && !bit v 61 }
  else if off = 0x120 then m.idleWrite w a v 0
  else if 0x200 ≤ off ∧ off < 0x300 then m.idleWrite w a v (rsvBits [(39, 0)])
  else if 0x1000 ≤ off ∧ off < 0x2000 then m.idleWrite w a v (if off / 8 % 2 = 1 then 0 else rsvBits [(63, 52), (39, 0)])
  else m.idleWrite w a v (BitVec.allOnes 64)

/-! ## Commands -/

/-- FENCE (R157): every earlier memory effect of the thread has been made when it executes, in a model of one step at a time. -/
def execFence (c : Fin 72) (gd : BitVec 4) (s : State) : Host.Outcome State Fault Refusal :=
  s.act fun m => m.insn c gd (.fence c gd) (regBody id)

/-- CACHE.CLN.R (R158). -/
def execCacheClnR (c : Fin 72) (gd : BitVec 4) (ra rb : BitVec 5) (s : State) : Host.Outcome State Fault Refusal :=
  s.act fun m => m.insn c gd (.cacheClnR c gd ra rb) fun m k =>
    rangeLoop c k .read ra rb (fun m b => m.cleanLine c b) (m.rangeLines k ra rb) m

/-- CACHE.INV.R (R158). -/
def execCacheInvR (c : Fin 72) (gd : BitVec 4) (ra rb : BitVec 5) (s : State) : Host.Outcome State Fault Refusal :=
  s.act fun m => m.insn c gd (.cacheInvR c gd ra rb) fun m k =>
    rangeLoop c k .write ra rb (fun m b => m.invalLine c b) (m.rangeLines k ra rb) m

/-- PREFETCH (R517): the prefetcher of a sheaf follows thread k's run of misses. -/
def execPrefetch (sheaf : Fin 8) (k : Fin 4096) (s : State) : Host.Outcome State Fault Refusal :=
  s.act fun m => m.fabric fun m =>
    let r := tget MissRun.reset m.cch.runs k
    if 3 ≤ r.count ∧ (m.thr k).state = .running ∧ (m.thr k).core / 8 = sheaf then
      let m1 := m.prefetchLines sheaf k 8 (r.last + 1)
      { m1 with cch := { m1.cch with runs := tdel m1.cch.runs k } }
    else m

/-- EVICTION_WRITEBACK (R519). -/
def execEvictionWriteback (cache : Fin 9) (s : State) : Host.Outcome State Fault Refusal :=
  s.act fun m => m.fabric fun m => m.landOldest cache

/-- SCRUB_GO (R530): a write to ECC_SCRUB_CMD that commands GO. -/
def execScrubGo (w : Who) (v : W64) (s : State) : Host.Outcome State Fault Refusal :=
  s.access fun m => m.scrubCmd w ((v &&& ~~~maskOf 63 60) ||| at_ 60 1)

/-- SCRUB_STOP (R532): a write to ECC_SCRUB_CMD that commands STOP. -/
def execScrubStop (w : Who) (v : W64) (s : State) : Host.Outcome State Fault Refusal :=
  s.access fun m => m.scrubCmd w ((v &&& ~~~maskOf 63 60) ||| at_ 60 2)

/-- SCRUB_READ (R531). -/
def execScrubRead (s : State) : Host.Outcome State Fault Refusal := s.act fun m => m.fabric fun m => m.scrubStep

/-- ECC_CTL_CLEAR (R529). -/
def execEccCtlClear (w : Who) (v : W64) (s : State) : Host.Outcome State Fault Refusal := s.access fun m => m.eccCtl w v

end Sys2Proof.Machine
end

