-- ==== Sys2Proof/Machine/DramCtl.lean ====
section
/-! DEFINITION. The DRAM controllers' commands and registers: bring-up, retirement, migration, refresh (R541 to R556). -/

namespace Sys2Proof.Machine

/-- Address of a DRC register. -/
def drcReg (off : Nat) : Nat := 0x200F00000 + off

/-- Are the risky operations of R588 held: VIN below the inhibit threshold, or a sensor at 112 °C or above (R596)? -/
def Mach.inhibited (m : Mach) : Bool := m.pwr.inhibit || m.pwr.hotHold

/-- Ranges that no rank serves and that wait for the spare to come up (R549). -/
def Mach.orphans (m : Mach) : List Nat :=
  (List.range 4).filter fun p => m.drc.lost != some p && !((List.range 5).any fun r => (m.rank r).serves == some p)

/-- The spare serves a failed rank's range at once (R549). -/
def Mach.adopt (m : Mach) (p : Nat) : Mach :=
  let m1 := m.setRank 4 { m.rank 4 with state := .service, serves := some p }
  { m1 with drc := { m1.drc with mode := if m1.drc.lost.isSome then 2 else 1, spared := some p } }

/-- Ranges without a rank: the spare takes one if it stands by, waits while it comes up, and otherwise they are lost (R549, R553). -/
def Mach.settleRanges (m : Mach) : Mach :=
  match m.orphans with
  | [] => m
  | p :: rest =>
    match (m.rank 4).state with
    | .standby => rest.foldl Mach.loseRange (m.adopt p)
    | .off | .training | .filling => rest.foldl Mach.loseRange m
    | _ => (p :: rest).foldl Mach.loseRange m

/-- A rank's training ends (R547 to R549): FILLING, or FAILED. -/
def Mach.trainingDone (m : Mach) (q : Nat) (cached ok : Bool) : Mach :=
  let r := m.rank q
  if r.state ≠ .training then m
  else if ok then
    if cached && m.fwa.trained.contains q then m.setRank q { r with state := .filling, filled := 0, trained := 1 }
    else
      let m1 := (m.setRank q { r with state := .filling, filled := 0, trained := 2 }).raise 744
      if m1.inhibited || m1.fwa.trained.contains q then m1
      else { m1 with fwa := { m1.fwa with trained := m1.fwa.trained ++ [q] } }
  else
    let m1 := m.setRank q { r with state := .failed, serves := none, train := sat 65535 (r.train + 1) }
    (m1.raise 746).settleRanges

/-- The next 1 MiB region of a rank is filled with zeros (R547). -/
def Mach.fillRegion (m : Mach) (q : Nat) : Mach :=
  let r := m.rank q
  if r.state ≠ .filling then m
  else
    let m1 := match r.serves with
      | none => m
      | some p =>
        let lo := dramBase + p * rangeSize + r.filled * 0x100000
        let hi := lo + 0x100000
        { m with mem := { cells := memClear m.mem.cells lo hi, chk := tdelRange m.mem.chk lo hi
                          tags := tdelRange m.mem.tags (lo / 8) (hi / 8) } }
    if r.filled + 1 < 8192 then m1.setRank q { r with filled := r.filled + 1 }
    else
      let m2 := (m1.setRank q { r with filled := 8192, state := if q < 4 then .service else .standby }).settleRanges
      let up := (List.range 5).all fun r => match (m2.rank r).state with | .training | .filling => false | _ => true
      if up then m2.bootStep 6 else m2

/-- Copy one word from the migrating rank: corrected, or written poisoned (R551). -/
def Mach.copyWord (m : Mach) (r a : Nat) : Mach :=
  match m.peekWord a with
  | .ok b lanes => if lanes = 0 then m else (m.eccCorr 1 a lanes).putBytes a b
  | .bad _ =>
    let v := m.rank r
    ((m.setRank r { v with poison := sat 65535 (v.poison + 1) }).eccBad 1 false).poisonWord a
  | .poison => m.eccBad 1 true

/-- Addresses of the words of [lo, hi) whose stored check bits or tag are not those of good data. -/
def Mach.oddWords (m : Mach) (lo hi : Nat) : List Nat :=
  let cs := (m.mem.chk.filter fun e => decide (lo ≤ e.1) && decide (e.1 < hi)).map fun e => e.1 / 8
  let ts := (m.mem.tags.filter fun e => decide (lo ≤ 8 * e.1) && decide (8 * e.1 < hi)).map (·.1)
  (((cs ++ ts).foldl (fun t w => tset t w ()) ([] : Tab Unit)).map (·.1)).map (8 * ·)

/-- One 1 MiB region is copied to the spare and redirected (R551); held below the inhibit threshold (R588). -/
def Mach.migrate (m : Mach) : Mach :=
  match m.drc.migrating with
  | none => m
  | some r =>
    if m.inhibited then m
    else
      let p := (m.rank r).serves.getD 0
      let lo := dramBase + p * rangeSize + m.drc.migpos * 0x100000
      let m1 := (m.oddWords lo (lo + 0x100000)).foldl (fun m a => m.copyWord r a) m
      let m2 : Mach := { m1 with drc := { m1.drc with migpos := m1.drc.migpos + 1 } }
      if m2.drc.migpos < 8192 then m2
      else
        let m3 := m2.setRank r { m2.rank r with state := .retired, serves := none }
        let m4 := m3.setRank 4 { m3.rank 4 with state := .service, serves := some p }
        Mach.raise { m4 with drc := { m4.drc with migrating := none, spared := some p,
                                                   mode := if m4.drc.lost.isSome then 2 else 1 } } 742

/-- A write to DRC_CTL (R556): ring 0. -/
def Mach.drcCtl (m : Mach) (w : Who) (v : W64) : Mach × RegOut :=
  let q := fld v 2 0
  let ok := match fld v 63 60 with
    | 1 => (List.range 5).all fun r => (m.rank r).state == .off || (m.rank r).state == .retired
    | 2 => decide (q ≤ 4) && m.drc.migrating.isNone &&
        (match (m.rank q).state with | .failed | .retired | .training | .filling => false | _ => true)
    | _ => false
  m.writeReg w (drcReg 0x808) v (rsvBits [(63, 60), (2, 0)]) w.zero ok fun m =>
    if fld v 63 60 = 1 then
      ((List.range 5).foldl (fun m r => if (m.rank r).state = .off then m.setRank r { m.rank r with state := .training } else m)
        m).settleRanges
    else m.retire q

/-- A mask value that R542 allows for bank bit b. -/
def xmapOk (b : Nat) (v : W64) : Bool :=
  bit v (13 + b) && (fld v 16 13 == 2 ^ b) && fld v 6 0 == 0 && fld v 63 33 == 0

/-- Code of a rank state (R556). -/
def RankState.code : RankState → Nat
  | .off => 0 | .training => 1 | .filling => 2 | .service => 3 | .standby => 4 | .copying => 5 | .migrating => 6 | .retired => 7
  | .failed => 8

/-- Reset value of mask b of a rank (R556). -/
def xmapReset (b : Nat) : BitVec 33 := 1 <<< (13 + b)

/-- A read of a DRC register. -/
def Mach.drcRead (m : Mach) (w : Who) (off : Nat) : Mach × RegOut :=
  let q := off / 0x100
  let r := m.rank q
  let d := m.drc
  if !w.low then (m, .denied 1)
  else if off = 0x800 then
    (m, .value (at_ 62 d.mode ||| at_ 59 (d.spared.getD 7) ||| at_ 56 (d.lost.getD 7) ||| at_ 0 d.migpos))
  else if 5 ≤ q then (m, .value 0)
  else match off % 0x100 with
    | 0x00 => (m, .value (at_ 60 r.state.code ||| at_ 57 (r.serves.getD 7) ||| flagAt 56 r.selfref ||| at_ 54 r.trained ||| at_ 40 r.mr4))
    | 0x28 => (m.setRank q { r with uncorr := 0, tagmis := 0, poison := 0, train := 0 },
        .value (at_ 48 r.uncorr ||| at_ 32 r.tagmis ||| at_ 16 r.poison ||| at_ 0 r.train))
    | 0x30 => (m, .value (w64 r.bursts))
    | o => (m, .value (if 8 ≤ o ∧ o ≤ 0x20 then (tget (xmapReset ((o - 8) / 8)) r.xmap ((o - 8) / 8)).setWidth 64 else 0))

/-- A write of a DRC register. -/
def Mach.drcWrite (m : Mach) (w : Who) (off : Nat) (v : W64) : Mach × RegOut :=
  let q := off / 0x100
  let r := m.rank q
  let a := drcReg off
  if off = 0x808 then m.drcCtl w v
  else if off = 0x800 then m.deadWrite w a v (rsvBits [(63, 56), (13, 0)])
  else if 5 ≤ q then m.deadWrite w a v (BitVec.allOnes 64)
  else match off % 0x100 with
    | 0x00 => m.deadWrite w a v (rsvBits [(63, 53), (52, 48), (47, 40)] ||| maskOf 53 48)
    | 0x28 => m.deadWrite w a v 0
    | 0x30 => m.deadWrite w a v 0
    | o =>
      if 8 ≤ o ∧ o ≤ 0x20 then
        m.writeReg w a v 0 w.zero (xmapOk ((o - 8) / 8) v && r.state == .off) fun m =>
          m.setRank q { r with xmap := tset r.xmap ((o - 8) / 8) (v.setWidth 33) }
      else m.deadWrite w a v (BitVec.allOnes 64)

/-! ## Commands -/

/-- DRC_INIT (R547): a write to DRC_CTL that commands INIT. -/
def execDrcInit (w : Who) (v : W64) (s : State) : Host.Outcome State Fault Refusal :=
  s.access fun m => m.drcCtl w ((v &&& ~~~maskOf 63 60) ||| at_ 60 1)

/-- RETIRE_RANK (R550): a write to DRC_CTL that commands RETIRE. -/
def execRetireRank (w : Who) (v : W64) (s : State) : Host.Outcome State Fault Refusal :=
  s.access fun m => m.drcCtl w ((v &&& ~~~maskOf 63 60) ||| at_ 60 2)

/-- DRAM_TRAINING_DONE (R547). -/
def execDramTrainingDone (q : Fin 5) (cached ok : Bool) (s : State) : Host.Outcome State Fault Refusal :=
  s.act fun m => m.fabric fun m => m.trainingDone q cached ok

/-- DRAM_FILL_REGION (R547). -/
def execDramFillRegion (q : Fin 5) (s : State) : Host.Outcome State Fault Refusal := s.act fun m => m.fabric fun m => m.fillRegion q

/-- MIGRATION_REGION (R551). -/
def execMigrationRegion (s : State) : Host.Outcome State Fault Refusal := s.act fun m => m.fabric fun m => m.migrate

/-- Is a rank refreshed by its controller: in use and not in self refresh (R545, R546)? -/
def Rank.refreshed (r : Rank) : Bool :=
  !r.selfref && (match r.state with | .filling | .service | .standby | .copying | .migrating => true | _ => false)

/-- DRAM_REFRESH (R545): an all-bank refresh is issued between requests; one more interval since MR4 was read. -/
def execDramRefresh (q : Fin 5) (s : State) : Host.Outcome State Fault Refusal :=
  s.act fun m => m.fabric fun m =>
    let r := m.rank q
    if r.refreshed then m.setRank q { r with since := sat 16 (r.since + 1) } else m

/-- MR4_READ (R545): once per 16 refresh intervals; a change of the multiplier raises event 745. -/
def execMr4Read (q : Fin 5) (v : BitVec 8) (s : State) : Host.Outcome State Fault Refusal :=
  s.act fun m => m.fabric fun m =>
    let r := m.rank q
    if r.refreshed && decide (16 ≤ r.since) then
      let n := Config.refreshMult v.toNat
      let m1 := m.setRank q { r with mr4 := v.toNat, since := 0, mult := n }
      if n = r.mult then m1 else m1.raise 745
    else m

end Sys2Proof.Machine
end

