-- ==== Sys2Proof/Machine/FwArray.lean ====
section
/-! DEFINITION. The firmware array's commands and registers: program, clear, erase, suspension, the hold below the inhibit threshold,
and the read-out protection fuses (R559 to R568, R572, R581). -/

namespace Sys2Proof.Machine

/-- Address of an FWA register. -/
def fwaReg (off : Nat) : Nat := 0x201000000 + off

/-- First offset and length of what an operation covers: a sector for an erase, a 256 B unit otherwise. -/
def FwaOp.span (o : FwaOp) : Nat × Nat := if o.kind = .erase then (o.off, 65536) else (o.off, 256)

/-- Every line of an operation's unit or sector is dropped in every cache (R513, R563). -/
def Mach.dropArray (m : Mach) (o : FwaOp) : Mach := m.discard (fwaBase + o.span.1) (fwaBase + o.span.1 + o.span.2)

/-- An operation issues (R563). -/
def Mach.fwaIssue (m : Mach) (o : FwaOp) : Mach :=
  let f := m.fwa
  let f1 := { f with op := some { o with from_ := m.tb }, offset := o.off, suspN := if o.kind = .erase then 0 else f.suspN }
  let m1 := { m with fwa := f1 }
  if o.kind = .erase then m1.dropArray o else m1

/-- Bytes of [a, a + n) take contents that nothing fixes (R568). -/
def Mach.blur (m : Mach) (a n : Nat) : Mach :=
  let d := m.free
  (List.range n).foldl (fun m i =>
    let x := Config.partErased d (a + i)
    m.putRaw (a + i) (x.extractLsb' 0 8) (x.extractLsb' 8 5)) { m with free := m.free + 1 }

/-- Is every byte of [a, a + n) of the array erased (R560)? -/
def Mach.erased (m : Mach) (a n : Nat) : Bool := (List.range n).all fun i => m.byte (a + i) == 0xFF && m.check (a + i) == 0b11111

/-- The range goes back to ones (R560). -/
def Mach.eraseRange (m : Mach) (a n : Nat) : Mach :=
  { m with mem := { m.mem with cells := memClear m.mem.cells a (a + n), chk := tdelRange m.mem.chk a (a + n) } }

/-- Program bytes with their check bits. -/
def Mach.programRange (m : Mach) : Nat → List Byte → Mach
  | _, [] => m
  | a, b :: t => Mach.programRange (m.putRaw a b (checkOf b)) (a + 1) t

/-- An operation ends with a status: event 769 for VERIFY-FAIL, event 768 for every completion (R563). -/
def Mach.fwaEnd (m : Mach) (o : FwaOp) (status : Nat) : Mach :=
  let m1 := m.dropArray o
  let f := m1.fwa
  let m2 := { m1 with fwa := { f with op := none, last := status, vfail := if status = 2 then sat 65535 (f.vfail + 1) else f.vfail } }
  (if status = 2 then m2.raise 769 else m2).raise 768

/-- The running operation completes; `ok` says that the read-back agrees (R563). -/
def Mach.fwaComplete (m : Mach) (ok : Bool) : Mach :=
  match m.fwa.op with
  | none => m
  | some o =>
    let a := fwaBase + o.off
    match o.kind with
    | .program =>
      if !m.erased a 256 then m.fwaEnd o 3
      else match m.readBytes o.src 256 with
        | (m1, .ok b) => if ok then (m1.programRange a b).fwaEnd o 0 else (m1.blur a 256).fwaEnd o 2
        | (m1, _) => (m1.blur a 256).fwaEnd o 2
    | .clear => if ok then ((List.range 256).foldl (fun m i => m.putRaw (a + i) 0 0) m).fwaEnd o 0 else (m.blur a 256).fwaEnd o 2
    | .erase => if ok then (m.eraseRange a 65536).fwaEnd o 0 else (m.blur a 65536).fwaEnd o 2

/-- The bank of the array that the requester's own executing instruction lies in (R564). -/
def Mach.writerBank (m : Mach) (w : Who) : Option Nat :=
  let t := m.thr w.tcb
  let a := pcAddr t.pc
  if !w.dbg && t.state == .running && t.ring == w.ring && regionOf a == .fwa then some (bankOf (a - fwaBase)) else none

/-- The running erase is suspended: once more in its count (R565). -/
def Mach.fwaSuspend (m : Mach) (sag : Bool) : Mach :=
  match m.fwa.op with
  | some o =>
    if o.kind = .erase then
      { m with fwa := { m.fwa with op := none, susp := some o, suspSag := sag, suspN := sat 65535 (m.fwa.suspN + 1) } }
    else m
  | none => m

/-- The suspended erase goes on (R565). -/
def Mach.fwaResume (m : Mach) : Mach :=
  match m.fwa.op, m.fwa.susp with
  | none, some o => { m with fwa := { m.fwa with op := some { o with from_ := m.tb }, susp := none, suspSag := false } }
  | _, _ => m

/-- A write to FWA_CMD (R563 to R567, R581): ring 0. -/
def Mach.fwaCmd (m : Mach) (w : Who) (v : W64) : Mach × RegOut :=
  let f := m.fwa
  let op := fld v 63 60
  let off := fld v 24 0
  let srcOk := f.src % 8 == 0 && inStore f.src && regionOf (f.src + 255) == regionOf f.src
  let inSusp : Bool := match f.susp with
    | some o => sectorOf o.off == sectorOf off
    | none => false
  let idle := f.op.isNone && f.heldCmd.isNone
  let ok := match op with
    | 1 => off % 256 == 0 && srcOk && idle && !inSusp
    | 2 => off % 256 == 0 && idle && !inSusp
    | 3 => off % 65536 == 0 && idle && f.susp.isNone
    | 4 => off == 0
    | 5 => off == 0 && f.op.isNone
    | _ => false
  m.writeReg w (fwaReg 0) v (rsvBits [(63, 60), (24, 0)]) w.zero ok fun m =>
    if op = 4 then m.fwaSuspend false
    else if op = 5 then
      if f.susp.isSome && m.inhibited then Mach.raise { m with fwa := { f with suspSag := true } } 772 else m.fwaResume
    else if m.writerBank w = some (bankOf off) then
      Mach.raise { m with fwa := { f with last := 1, selfbank := sat 65535 (f.selfbank + 1) } } 770
    else
      let kind : FwaKind := if op = 1 then .program else if op = 2 then .clear else .erase
      let o : FwaOp := { kind := kind, off := off, src := f.src, from_ := m.tb }
      if m.inhibited then Mach.raise { m with fwa := { f with heldCmd := some o } } 772 else m.fwaIssue o

/-! ## Fuses (R572) -/

/-- A fuse is burned: 1 RAISE, 2 SEAL, 3 LOWREQ; event 777. -/
def Mach.burn (m : Mach) (n : Nat) : Mach :=
  let f := m.fwa
  let f1 := match n with
    | 1 => { f with raise := f.raise + 1 }
    | 2 => { f with sealed := true }
    | _ => { f with lowreq := f.lowreq + 1 }
  Mach.raise { m with fwa := f1 } 777

/-- May a write to FWA_RDP_CTL command this (R572)? -/
def Fwa.fuseOk (f : Fwa) (n : Nat) : Bool :=
  match n with
  | 1 => f.level == 0 && decide (f.raise < 8)
  | 2 => f.level != 2
  | 3 => f.level == 1 && decide (f.lowreq < 8)
  | _ => false

/-! ## VIN below the inhibit threshold (R567) -/

/-- VIN falls below the threshold: a running erase is suspended by the FWA block. -/
def Mach.fwaSag (m : Mach) : Mach := m.fwaSuspend true

/-- VIN recovers inside the window: the held command issues, and an erase that the sag suspended resumes. -/
def Mach.fwaRecover (m : Mach) : Mach :=
  let m1 := if m.fwa.suspSag then m.fwaResume else m
  match m1.fwa.heldCmd with
  | none => m1
  | some o => Mach.fwaIssue { m1 with fwa := { m1.fwa with heldCmd := none } } o

/-- The hold window expires: the held command and the suspended erase are abandoned with SUPPLY-LOW. -/
def Mach.fwaExpire (m : Mach) : Mach :=
  let abandon := fun (m : Mach) => Mach.raise { m with fwa := { m.fwa with last := 4, abandon := sat 65535 (m.fwa.abandon + 1) } } 773
  let m1 := if m.fwa.suspSag then
      match m.fwa.susp with
      | some o => abandon (({ m with fwa := { m.fwa with susp := none, suspSag := false } } : Mach).blur (fwaBase + o.off) 65536)
      | none => m
    else m
  if m1.fwa.heldCmd.isSome then abandon { m1 with fwa := { m1.fwa with heldCmd := none } } else m1

/-! ## Registers (R581) -/

/-- A read of an FWA register. -/
def Mach.fwaRead (m : Mach) (w : Who) (off : Nat) : Mach × RegOut :=
  let f := m.fwa
  if !w.low then (m, .denied 1)
  else match off with
    | 0x08 => (m, .value (w64 f.src))
    | 0x10 => (m, .value (flagAt 63 (f.op.isSome || f.susp.isSome) ||| flagAt 62 f.susp.isSome ||| flagAt 61 f.heldCmd.isSome |||
        at_ 56 f.last ||| at_ 32 f.suspN ||| at_ 0 f.offset))
    | 0x18 => (m, .value (w64 f.sense))
    | 0x20 => (m, .value (at_ 62 f.level ||| flagAt 12 f.sealed ||| at_ 8 f.raise ||| at_ 4 f.lowreq ||| at_ 0 f.lowdone))
    | 0x30 => (m, .value (at_ 63 f.bank ||| flagAt 62 f.failover ||| flagAt 61 f.trial ||| flagAt 60 f.limp ||| at_ 56 f.limpCause |||
        at_ 0 (fld f.image 47 0)))
    | 0x40 => ({ m with fwa := { f with vfail := 0, selfbank := 0, suspread := 0, abandon := 0 } },
        .value (at_ 48 f.vfail ||| at_ 32 f.selfbank ||| at_ 16 f.suspread ||| at_ 0 f.abandon))
    | _ => (m, .value 0)

/-! ## Commands -/

/-- FWA_PROGRAM (R563): a write to FWA_CMD that commands PROGRAM. -/
def execFwaProgram (w : Who) (v : W64) (s : State) : Host.Outcome State Fault Refusal :=
  s.access fun m => m.fwaCmd w ((v &&& ~~~maskOf 63 60) ||| at_ 60 1)

/-- FWA_CLEAR (R563). -/
def execFwaClear (w : Who) (v : W64) (s : State) : Host.Outcome State Fault Refusal :=
  s.access fun m => m.fwaCmd w ((v &&& ~~~maskOf 63 60) ||| at_ 60 2)

/-- FWA_ERASE (R563). -/
def execFwaErase (w : Who) (v : W64) (s : State) : Host.Outcome State Fault Refusal :=
  s.access fun m => m.fwaCmd w ((v &&& ~~~maskOf 63 60) ||| at_ 60 3)

/-- FWA_SUSPEND (R565). -/
def execFwaSuspend (w : Who) (v : W64) (s : State) : Host.Outcome State Fault Refusal :=
  s.access fun m => m.fwaCmd w ((v &&& ~~~maskOf 63 60) ||| at_ 60 4)

/-- FWA_RESUME (R565). -/
def execFwaResume (w : Who) (v : W64) (s : State) : Host.Outcome State Fault Refusal :=
  s.access fun m => m.fwaCmd w ((v &&& ~~~maskOf 63 60) ||| at_ 60 5)

/-- FWA_OP_COMPLETE (R563). -/
def execFwaOpComplete (ok : Bool) (s : State) : Host.Outcome State Fault Refusal := s.act fun m => m.fabric fun m => m.fwaComplete ok

end Sys2Proof.Machine
end

