-- ==== Sys2Proof/Machine/Groat.lean ====
section
/-! DEFINITION. The Groat codec: the frame, its coded blocks, the encoder and the decoder (R395 to R407, R413). -/

namespace Sys2Proof.Machine

/-- Parameters of a frame (R396). -/
structure GParam where
  esz    : Nat
  pred   : Nat
  stride : Nat
  row    : Nat
deriving DecidableEq, Repr

/-- Parameters from the PARAM byte, STRIDE and ROW. -/
def GParam.of (param stride row : Nat) : GParam :=
  { esz := 2 ^ (param % 4), pred := param / 4 % 8, stride := stride, row := row }
/-- The PARAM byte: log2 of the element size and the initial predictor. -/
def GParam.byte (g : GParam) : Nat := Nat.log2 g.esz + 4 * g.pred
/-- Bits of an element. -/
def GParam.w (g : GParam) : Nat := 8 * g.esz

/-- Offset of the first field of PARAM, STRIDE and ROW that breaks R396, from the base given for each; none when all hold. -/
def GParam.badAt (g : GParam) (param : Nat) (atParam atStride atRow : Nat) : Option Nat :=
  if param / 32 ≠ 0 ∨ 4 < g.pred then some atParam
  else if (g.stride ≠ 0 ∧ (g.stride % g.esz ≠ 0 ∨ 4096 < g.stride)) ∨ (g.pred = 2 ∧ g.stride = 0) then some atStride
  else if (g.row ≠ 0 ∧ (g.row % g.esz ≠ 0 ∨ 65536 - g.esz < g.row)) ∨ (g.pred = 3 ∧ g.row = 0) then some atRow
  else none

/-! ## Predictors and residues (R402, R403) -/

/-- The element at offset o − back; zero below offset 0. -/
def elemBack (a : Array Byte) (esz o back : Nat) : Nat :=
  if o < back then 0 else (List.range esz).foldl (fun v i => v + (a.getD (o - back + i) 0).toNat * 256 ^ i) 0

/-- The prediction of predictor x for the element at offset o. -/
def GParam.predict (g : GParam) (a : Array Byte) (x o : Nat) : Nat :=
  let at_ := fun b => elemBack a g.esz o b
  let n := 2 ^ g.w
  match x with
  | 0 => at_ g.esz
  | 1 => (2 * at_ g.esz + n - at_ (2 * g.esz)) % n
  | 2 => at_ g.stride
  | 3 => (at_ g.esz + at_ g.row + n - at_ (g.row + g.esz)) % n
  | _ => 0

/-- The residue z of an element against its prediction. -/
def GParam.zigzag (g : GParam) (x p : Nat) : Nat :=
  let n := 2 ^ g.w
  let r := (x + n - p) % n
  if r < n / 2 then 2 * r else 2 * n - 1 - 2 * r

/-- The element that a prediction and a residue give. -/
def GParam.unzig (g : GParam) (z p : Nat) : Nat :=
  let n := 2 ^ g.w
  if z % 2 = 0 then (p + z / 2) % n else (p + n - (z + 1) / 2 % n) % n

/-- The coder's parameter k at state s. -/
def GParam.k (g : GParam) (s : Nat) : Nat := Nat.min (g.w - 1) (Nat.log2 (Nat.max 1 (s / 16)))
/-- The coder's state after a residue. -/
def nextS (s z : Nat) : Nat := s - s / 16 + Nat.min z (2 ^ 40)

/-- The low n bits of a value, least significant first. -/
def bitsOf : Nat → Nat → List Bool
  | 0, _ => []
  | n + 1, v => (v % 2 == 1) :: bitsOf n (v / 2)

/-- A residue code. -/
def GParam.resCode (g : GParam) (s z : Nat) : List Bool :=
  let k := g.k s
  let q := z / 2 ^ k
  if q < 24 then List.replicate q true ++ false :: bitsOf k z else List.replicate 24 true ++ bitsOf g.w z

/-- Bytes of a bit stream, zero bits filling the last (R400). -/
def packBits : Nat → List Bool → List Byte
  | 0, _ => []
  | n + 1, l =>
    BitVec.ofNat 8 ((l.take 8).foldr (fun b v => 2 * v + (if b then 1 else 0)) 0) :: packBits n (l.drop 8)

/-! ## The encoder (R405, R406) -/

/-- Hash of the four bytes at a position. -/
def gHash (a : Array Byte) (p : Nat) : Nat := (elemBack a 4 p 0 * 0x9E3779B1 % 2 ^ 32) / 2 ^ 20

/-- Equal bytes from p and o, at most n. -/
def runEq (a : Array Byte) : Nat → Nat → Nat → Nat
  | 0, _, _ => 0
  | n + 1, p, o => if a.getD p 0 = a.getD o 0 then 1 + runEq a n (p + 1) (o + 1) else 0

/-- The candidate positions for the element at o. -/
def GParam.candidates (g : GParam) (a : Array Byte) (o : Nat) : List Nat :=
  let h := if o + 4 ≤ a.size then
      (((List.range (Nat.min o 65536 / g.esz)).map fun i => o - g.esz * (i + 1)).filter fun p =>
        decide (p + 4 ≤ a.size) && gHash a p == gHash a o).take 4
    else []
  if g.stride ≠ 0 ∧ g.stride ≤ o then h ++ [o - g.stride] else h

/-- search(o): the longest qualifying match and, of equal ones, the nearest; `stop` is the end of the block's last element. -/
def GParam.search (g : GParam) (a : Array Byte) (o stop : Nat) : Option (Nat × Nat) :=
  (g.candidates a o).foldl (fun best p =>
    let len := runEq a (Nat.min 4096 (stop - o)) p o / g.esz * g.esz
    if len < 16 then best
    else match best with
      | none => some (o - p, len)
      | some (d, l) => if l < len ∨ (l = len ∧ o - p < d) then some (o - p, len) else best) none

/-- State of the encoder of a block: output so far (newest last), zero residues not yet written, coder state. -/
structure GEnc where
  out : List Bool
  run : Nat
  s   : Nat

/-- Write out the pending run of zero residues. The coder's state takes each of them as it is written. -/
def GEnc.flush (g : GParam) (e : GEnc) : GEnc :=
  if e.run = 0 then e
  else if e.run = 1 then { out := e.out ++ false :: g.resCode e.s 0, run := 0, s := nextS e.s 0 }
  else { out := e.out ++ [true, true, true, false] ++ bitsOf 12 (e.run - 1), run := 0, s := iter (fun s => nextS s 0) e.run e.s }

/-- Code the elements from o to `stop` under predictor x. -/
def GParam.codeFrom (g : GParam) (a : Array Byte) (x stop : Nat) : Nat → Nat → GEnc → GEnc
  | 0, _, e => e.flush g
  | n + 1, o, e =>
    if stop ≤ o then e.flush g
    else match g.search a o stop with
      | some (d, len) =>
        let e1 := e.flush g
        GParam.codeFrom g a x stop n (o + len)
          { e1 with out := e1.out ++ [true, false] ++ bitsOf 16 (d - 1) ++ bitsOf 12 (len / g.esz - 1) }
      | none =>
        let z := g.zigzag (elemBack a g.esz o 0) (g.predict a x o)
        if z = 0 then
          let e1 := if e.run = 4096 then e.flush g else e
          GParam.codeFrom g a x stop n (o + g.esz) { e1 with run := e1.run + 1 }
        else
          let e1 := e.flush g
          GParam.codeFrom g a x stop n (o + g.esz) { out := e1.out ++ false :: g.resCode e1.s z, run := 0, s := nextS e1.s z }

/-- code(B, x) for the block [b, b + L). -/
def GParam.code (g : GParam) (a : Array Byte) (b len x : Nat) : List Bool :=
  let head := if x = g.pred then [] else [true, true, false] ++ bitsOf 3 x
  let n := len / g.esz
  (g.codeFrom a x (b + n * g.esz) n b { out := head, run := 0, s := 256 }).out

/-- The bytes [o, o + n) of an array. -/
def Array.slice (a : Array Byte) (o n : Nat) : List Byte := (List.range n).map fun i => a.getD (o + i) 0

/-- Eligible predictors. -/
def GParam.eligible (g : GParam) : List Nat :=
  [0, 1] ++ (if g.stride = 0 then [] else [2]) ++ (if g.row = 0 then [] else [3]) ++ [4]

/-- One encoded block with its header. -/
def GParam.block (g : GParam) (a : Array Byte) (b len : Nat) : List Byte :=
  if (List.range len).all fun i => a.getD (b + i) 0 == 0 then leBytes 2 0x8000
  else
    let best := g.eligible.foldl (fun (s : Option (List Bool)) x =>
      let c := g.code a b len x
      match s with
      | none => some c
      | some d => if c.length < d.length then some c else some d) none
    let c := best.getD []
    let tail := len % g.esz
    let n := ceilDiv c.length 8 + tail
    if n < len then leBytes 2 (0x4000 + n) ++ packBits (ceilDiv c.length 8) c ++ Array.slice a (b + len - tail) tail
    else leBytes 2 0 ++ Array.slice a b len

/-- The encoded blocks of original data. -/
def GParam.blocks (g : GParam) (a : Array Byte) : List (List Byte) :=
  (List.range (ceilDiv a.size 4096)).map fun i => g.block a (4096 * i) (Nat.min 4096 (a.size - 4096 * i))

/-- The frame header. -/
def GParam.header (g : GParam) (olen : Nat) : List Byte :=
  leBytes 4 0x31545247 ++ [1, BitVec.ofNat 8 g.byte] ++ leBytes 2 g.stride ++ leBytes 2 g.row ++ leBytes 4 olen ++ zeros 2

/-- The frame trailer. -/
def gTrailer (flen dcrc : Nat) : List Byte := leBytes 4 flen ++ leBytes 4 dcrc ++ leBytes 4 0x444E4547

/-- The pieces of a frame in the order they are written: header with the first block, each further block, trailer (R411). -/
def GParam.pieces (g : GParam) (data : List Byte) : List (List Byte) :=
  let bs := g.blocks data.toArray
  let flen := 28 + (bs.map List.length).sum
  let t := gTrailer flen (crc32c data)
  match bs with
  | [] => [g.header 0 ++ t]
  | b :: rest => (g.header data.length ++ b) :: rest ++ [t]

/-- The whole frame. -/
def GParam.frame (g : GParam) (data : List Byte) : List Byte := (g.pieces data).flatten

/-! ## The decoder (R400 to R404, R413) -/

/-- A fault of a frame: its status, its offset, and whether it is one of the trailer row. -/
structure GFault where
  status  : Nat
  off     : Nat
  trailer : Bool
deriving DecidableEq, Repr

/-- ILLEGAL-CODE at an offset. -/
def illegal (off : Nat) : GFault := { status := 0x0402, off := off, trailer := false }

/-- The payload of a coded block inside the input: its first byte and its end, and the end of the input. -/
structure GSrc where
  a     : Array Byte
  first : Nat
  stop  : Nat

/-- Read n bits, least significant first, from bit position b of the payload. -/
def GSrc.bits (s : GSrc) (b n : Nat) : Except GFault Nat :=
  let lastB := s.first + (b + n - 1) / 8
  if n = 0 then .ok 0
  else if s.a.size ≤ lastB ∧ s.a.size < s.stop then .error { status := 0x0405, off := s.a.size, trailer := false }
  else if s.stop ≤ lastB then .error (illegal s.stop)
  else .ok ((List.range n).foldl (fun v i => v + (if (s.a.getD (s.first + (b + i) / 8) 0).getLsbD ((b + i) % 8) then 2 ^ i else 0)) 0)

/-- Ones of the unary part from bit b, at most n. -/
def GSrc.ones (s : GSrc) : Nat → Nat → Except GFault Nat
  | 0, _ => .ok 0
  | n + 1, b => do
    let v ← s.bits b 1
    if v = 0 then pure 0 else do
      let r ← GSrc.ones s n (b + 1)
      pure (r + 1)

/-- A residue code at bit b: z and the bit after it. -/
def GParam.readRes (g : GParam) (s : GSrc) (st b : Nat) : Except GFault (Nat × Nat) := do
  let q ← s.ones 24 b
  if q = 24 then do
    let z ← s.bits (b + 24) g.w
    pure (z, b + 24 + g.w)
  else do
    let k := g.k st
    let r ← s.bits (b + q + 1) k
    pure ((q * 2 ^ k + r) % 2 ^ g.w, b + q + 1 + k)

/-- State of the decoder in a block: everything produced, the predictor, the coder state, the bit position. -/
structure GDec where
  out  : Array Byte
  pred : Nat
  s    : Nat
  b    : Nat

/-- Append an element. -/
def pushElem (out : Array Byte) (esz v : Nat) : Array Byte := (leBytes esz v).foldl (fun a x => a.push x) out

/-- Copy n bytes from d back. -/
def copyBack (out : Array Byte) (d n : Nat) : Array Byte := (List.range n).foldl (fun a _ => a.push (a.getD (a.size - d) 0)) out

/-- Decode tokens until `stop` bytes stand in the output. -/
def GParam.tokens (g : GParam) (s : GSrc) (stop : Nat) : Nat → GDec → Except GFault GDec
  | 0, d => .ok d
  | n + 1, d => do
    if stop ≤ d.out.size then pure d
    else
      let tokAt := s.first + d.b / 8
      let p1 ← s.ones 4 d.b
      match p1 with
      | 0 => do
        let (z, b) ← g.readRes s d.s (d.b + 1)
        let x := g.unzig z (g.predict d.out d.pred d.out.size)
        GParam.tokens g s stop n { d with out := pushElem d.out g.esz x, s := nextS d.s z, b := b }
      | 1 => do
        let dist ← s.bits (d.b + 2) 16
        let len ← s.bits (d.b + 18) 12
        let bytes := (len + 1) * g.esz
        if 4096 < bytes then .error (illegal tokAt)
        else if d.out.size < dist + 1 then .error { status := 0x0403, off := tokAt, trailer := false }
        else if stop < d.out.size + bytes then .error { status := 0x0404, off := tokAt, trailer := false }
        else GParam.tokens g s stop n { d with out := copyBack d.out (dist + 1) bytes, b := d.b + 30 }
      | 2 => do
        let x ← s.bits (d.b + 3) 3
        if 4 < x ∨ (x = 2 ∧ g.stride = 0) ∨ (x = 3 ∧ g.row = 0) then .error (illegal tokAt)
        else GParam.tokens g s stop n { d with pred := x, b := d.b + 6 }
      | 3 => do
        let c ← s.bits (d.b + 4) 12
        if stop < d.out.size + (c + 1) * g.esz then .error { status := 0x0404, off := tokAt, trailer := false }
        else
          let out := (List.range (c + 1)).foldl (fun o _ => pushElem o g.esz (g.predict o d.pred o.size)) d.out
          GParam.tokens g s stop n { d with out := out, s := iter (fun s => nextS s 0) (c + 1) d.s, b := d.b + 16 }
      | _ => .error (illegal tokAt)

/-- Decode one block of original length L whose header stands at p: the output with it, and the position after it. -/
def GParam.decodeBlock (g : GParam) (a : Array Byte) (out : Array Byte) (p len : Nat) : Except GFault (Array Byte × Nat) :=
  let short : GFault := { status := 0x0405, off := a.size, trailer := false }
  if a.size < p + 2 then .error short
  else
    let h := (a.getD p 0).toNat + 256 * (a.getD (p + 1) 0).toNat
    let kind := h / 16384
    let n := h % 16384
    if kind = 3 ∨ (kind ≠ 1 ∧ n ≠ 0) ∨ (kind = 1 ∧ (n = 0 ∨ len ≤ n)) then .error (illegal p)
    else if kind = 2 then .ok ((zeros len).foldl (fun o x => o.push x) out, p + 2)
    else if kind = 0 then
      if a.size < p + 2 + len then .error short
      else .ok ((Array.slice a (p + 2) len).foldl (fun o x => o.push x) out, p + 2 + len)
    else do
      let s : GSrc := { a := a, first := p + 2, stop := p + 2 + n }
      let e := len / g.esz
      let d ← g.tokens s (out.size + e * g.esz) (8 * n + 1) { out := out, pred := g.pred, s := 256, b := 0 }
      let pad ← s.bits d.b ((8 - d.b % 8) % 8)
      let fin := p + 2 + ceilDiv d.b 8
      let tail := len % g.esz
      if pad ≠ 0 then .error (illegal s.stop)
      else if fin + tail ≠ s.stop then .error (illegal s.stop)
      else if a.size < fin + tail then .error short
      else .ok ((Array.slice a fin tail).foldl (fun o x => o.push x) d.out, s.stop)

/-- The header of a frame: its parameters and OLEN. -/
def gHeader (a : Array Byte) : Except GFault (GParam × Nat) :=
  let u := fun o n => leNat (Array.slice a o n)
  let g := GParam.of (u 5 1) (u 6 2) (u 8 2)
  let olen := u 10 4
  if u 0 4 ≠ 0x31545247 then .error (illegal 0)
  else if u 4 1 ≠ 1 then .error (illegal 4)
  else match g.badAt (u 5 1) 5 6 8 with
    | some o => .error (illegal o)
    | none =>
      if olen = 0 ∨ 16777216 < olen then .error (illegal 10)
      else if u 14 2 ≠ 0 then .error (illegal 14)
      else .ok (g, olen)

/-- Decode n blocks: everything decoded, the position after the last, and the fault that ended it. -/
def GParam.decodeBlocks (g : GParam) (a : Array Byte) (olen : Nat) : Nat → Array Byte → Nat → Array Byte × Nat × Option GFault
  | 0, out, p => (out, p, none)
  | n + 1, out, p =>
    match g.decodeBlock a out p (Nat.min 4096 (olen - out.size)) with
    | .error f => (out, p, some f)
    | .ok (o, q) => GParam.decodeBlocks g a olen n o q

/-- The first fault of the trailer at p. -/
def gTrailerFault (a : Array Byte) (p dcrc : Nat) : Option GFault :=
  let u := fun o => leNat (Array.slice a o 4)
  let short : GFault := { status := 0x0405, off := a.size, trailer := false }
  let bad := fun o => some ({ status := 0x0402, off := o, trailer := true } : GFault)
  if a.size < p + 4 then some short
  else if u p ≠ p + 12 then bad p
  else if a.size < p + 8 then some short
  else if u (p + 4) ≠ dcrc then bad (p + 4)
  else if a.size < p + 12 then some short
  else if u (p + 8) ≠ 0x444E4547 then bad (p + 8)
  else none

/-- Decode a frame whose header is good: the bytes of every block decoded, and the first fault. -/
def gDecode (a : Array Byte) (g : GParam) (olen : Nat) : List Byte × Option GFault :=
  let (out, p, f) := g.decodeBlocks a olen (ceilDiv olen 4096) #[] 16
  match f with
  | some f => (out.toList, some f)
  | none => (out.toList, gTrailerFault a p (crc32c out.toList))

end Sys2Proof.Machine
end

