-- ==== Sys2Proof/Machine/Hash.lean ====
section
/-! DEFINITION. The digest functions: SHA-256 and SHA-512 (FIPS 180-4), SHA3-256 (FIPS 202) and HMAC (FIPS 198-1), as the digest engines
use them (R442 to R444). -/

namespace Sys2Proof.Machine

/-! ## SHA-2 -/

/-- Round constants of SHA-512 (FIPS 180-4). -/
def k512 : List (BitVec 64) :=
  [0x428A2F98D728AE22, 0x7137449123EF65CD, 0xB5C0FBCFEC4D3B2F, 0xE9B5DBA58189DBBC,
   0x3956C25BF348B538, 0x59F111F1B605D019, 0x923F82A4AF194F9B, 0xAB1C5ED5DA6D8118,
   0xD807AA98A3030242, 0x12835B0145706FBE, 0x243185BE4EE4B28C, 0x550C7DC3D5FFB4E2,
   0x72BE5D74F27B896F, 0x80DEB1FE3B1696B1, 0x9BDC06A725C71235, 0xC19BF174CF692694] ++
  [0xE49B69C19EF14AD2, 0xEFBE4786384F25E3, 0x0FC19DC68B8CD5B5, 0x240CA1CC77AC9C65,
   0x2DE92C6F592B0275, 0x4A7484AA6EA6E483, 0x5CB0A9DCBD41FBD4, 0x76F988DA831153B5,
   0x983E5152EE66DFAB, 0xA831C66D2DB43210, 0xB00327C898FB213F, 0xBF597FC7BEEF0EE4,
   0xC6E00BF33DA88FC2, 0xD5A79147930AA725, 0x06CA6351E003826F, 0x142929670A0E6E70] ++
  [0x27B70A8546D22FFC, 0x2E1B21385C26C926, 0x4D2C6DFC5AC42AED, 0x53380D139D95B3DF,
   0x650A73548BAF63DE, 0x766A0ABB3C77B2A8, 0x81C2C92E47EDAEE6, 0x92722C851482353B,
   0xA2BFE8A14CF10364, 0xA81A664BBC423001, 0xC24B8B70D0F89791, 0xC76C51A30654BE30,
   0xD192E819D6EF5218, 0xD69906245565A910, 0xF40E35855771202A, 0x106AA07032BBD1B8] ++
  [0x19A4C116B8D2D0C8, 0x1E376C085141AB53, 0x2748774CDF8EEB99, 0x34B0BCB5E19B48A8,
   0x391C0CB3C5C95A63, 0x4ED8AA4AE3418ACB, 0x5B9CCA4F7763E373, 0x682E6FF3D6B2B8A3,
   0x748F82EE5DEFB2FC, 0x78A5636F43172F60, 0x84C87814A1F0AB72, 0x8CC702081A6439EC,
   0x90BEFFFA23631E28, 0xA4506CEBDE82BDE9, 0xBEF9A3F7B2C67915, 0xC67178F2E372532B] ++
  [0xCA273ECEEA26619C, 0xD186B8C721C0C207, 0xEADA7DD6CDE0EB1E, 0xF57D4F7FEE6ED178,
   0x06F067AA72176FBA, 0x0A637DC5A2C898A6, 0x113F9804BEF90DAE, 0x1B710B35131C471B,
   0x28DB77F523047D84, 0x32CAAB7B40C72493, 0x3C9EBE0A15C9BEBC, 0x431D67C49C100D4C,
   0x4CC5D4BECB3E42B6, 0x597F299CFC657E2A, 0x5FCB6FAB3AD6FAEC, 0x6C44198C4A475817]
/-- Round constants of SHA-256: the first 32 bits of the same roots. -/
def k256 : List (BitVec 32) := (k512.take 64).map fun v => v.extractLsb' 32 32
/-- Initial hash value of SHA-512 (FIPS 180-4). -/
def iv512 : List (BitVec 64) :=
  [0x6A09E667F3BCC908, 0xBB67AE8584CAA73B, 0x3C6EF372FE94F82B, 0xA54FF53A5F1D36F1,
   0x510E527FADE682D1, 0x9B05688C2B3E6C1F, 0x1F83D9ABFB41BD6B, 0x5BE0CD19137E2179]
/-- Initial hash value of SHA-256: the first 32 bits of the same roots. -/
def iv256 : List (BitVec 32) := iv512.map fun v => v.extractLsb' 32 32

/-- A sum of two rotations and a third that is a rotation or a shift. -/
def sig {w : Nat} (a b c : Nat) (shift : Bool) (x : BitVec w) : BitVec w :=
  x.rotateRight a ^^^ x.rotateRight b ^^^ (if shift then x >>> c else x.rotateRight c)

/-- The twelve amounts of a SHA-2 function: big sigma 0, big sigma 1, small sigma 0, small sigma 1. -/
structure ShaAmounts where
  a : Nat × Nat × Nat
  e : Nat × Nat × Nat
  s0 : Nat × Nat × Nat
  s1 : Nat × Nat × Nat

def amounts256 : ShaAmounts := ⟨(2, 13, 22), (6, 11, 25), (7, 18, 3), (17, 19, 10)⟩
def amounts512 : ShaAmounts := ⟨(28, 34, 39), (14, 18, 41), (1, 8, 7), (19, 61, 6)⟩

/-- One more word of the message schedule; the words stand newest first. -/
def schedStep {w : Nat} (r : ShaAmounts) (ws : List (BitVec w)) : List (BitVec w) :=
  let g := fun (i : Nat) => (ws[i]?).getD 0
  (sig r.s1.1 r.s1.2.1 r.s1.2.2 true (g 1) + g 6 + sig r.s0.1 r.s0.2.1 r.s0.2.2 true (g 14) + g 15) :: ws

/-- One round. -/
def shaRound {w : Nat} (r : ShaAmounts) (v : List (BitVec w)) (kw : BitVec w) : List (BitVec w) :=
  match v with
  | [a, b, c, d, e, f, g, h] =>
    let t1 := h + sig r.e.1 r.e.2.1 r.e.2.2 false e + ((e &&& f) ^^^ (~~~e &&& g)) + kw
    let t2 := sig r.a.1 r.a.2.1 r.a.2.2 false a + ((a &&& b) ^^^ (a &&& c) ^^^ (b &&& c))
    [t1 + t2, a, b, c, d + t1, e, f, g]
  | _ => v

/-- The compression of one block of 16 words. -/
def shaBlock {w : Nat} (r : ShaAmounts) (ks h blk : List (BitVec w)) : List (BitVec w) :=
  let ws := (iter (schedStep r) (ks.length - 16) blk.reverse).reverse
  let v := (ks.zip ws).foldl (fun v x => shaRound r v (x.1 + x.2)) h
  (h.zip v).map fun x => x.1 + x.2

/-- Bytes as big-endian words of n bytes. -/
def beWords (w n : Nat) (b : List Byte) : List (BitVec w) :=
  (List.range (b.length / n)).map fun i => BitVec.ofNat w (beNat ((b.drop (n * i)).take n))

/-! ## SHA-3 -/

/-- Rotation amounts of Keccak, lane x + 5y. -/
def keccakRot : List Nat :=
  [0, 1, 62, 28, 27, 36, 44, 6, 55, 20, 3, 10, 43, 25, 39, 41, 45, 15, 21, 8, 18, 2, 61, 56, 14]

/-- Bits of Keccak's round-constant generator x^8 + x^6 + x^5 + x^4 + 1. -/
def keccakBits : List Bool :=
  ((iter (fun (s : List Bool × Nat) =>
    let n := s.2 * 2
    (s.1 ++ [s.2 % 2 == 1], if 256 ≤ n then n ^^^ 0x171 else n)) 168 ([], 1)).1)

/-- Round constant of round i. -/
def keccakRc (i : Nat) : W64 :=
  (List.range 7).foldl (fun v j => v ||| flagAt (2 ^ j - 1) ((keccakBits[7 * i + j]?).getD false)) 0

/-- One round of Keccak-f on 25 lanes. -/
def keccakRound (a : List W64) (rc : W64) : List W64 :=
  let g := fun (i : Nat) => (a[i]?).getD 0
  let c := (List.range 5).map fun x => g x ^^^ g (x + 5) ^^^ g (x + 10) ^^^ g (x + 15) ^^^ g (x + 20)
  let cg := fun (i : Nat) => c.getD (i % 5) 0
  let th := (List.range 25).map fun i => g i ^^^ cg (i % 5 + 4) ^^^ (cg (i % 5 + 1)).rotateLeft 1
  let rot := (List.range 25).map fun i => ((th[i]?).getD 0).rotateLeft ((keccakRot[i]?).getD 0)
  let b := fun (x y : Nat) => let x := x % 5; let xs := (x + 3 * y) % 5; (rot[xs + 5 * x]?).getD 0
  (List.range 25).map fun i =>
    let x := i % 5
    let y := i / 5
    let v := b x y ^^^ (~~~(b (x + 1) y) &&& b (x + 2) y)
    if i = 0 then v ^^^ rc else v

/-- Keccak-f[1600]. -/
def keccakF (a : List W64) : List W64 := (List.range 24).foldl (fun a i => keccakRound a (keccakRc i)) a

/-- Absorb one block of 136 bytes. -/
def keccakBlock (a : List W64) (b : List Byte) : List W64 :=
  keccakF ((List.range 25).map fun i => (a[i]?).getD 0 ^^^ (if i < 17 then w64 (leAt b (8 * i) 8) else 0))

/-! ## Algorithms of the digest engines (R167, R443) -/

/-- Block size of an algorithm in bytes. -/
def Alg.block : Alg → Nat
  | .sha256 | .hmac256 => 64
  | .sha512 | .hmac512 => 128
  | .sha3 => 136

/-- Digest size in bytes. -/
def Alg.size : Alg → Nat
  | .sha512 | .hmac512 => 64
  | _ => 32

/-- Is it a keyed algorithm? -/
def Alg.keyed : Alg → Bool
  | .hmac256 | .hmac512 => true
  | _ => false

/-- Initial chaining state, as 64-bit words. -/
def Alg.init : Alg → List W64
  | .sha256 | .hmac256 => iv256.map fun x => x.setWidth 64
  | .sha512 | .hmac512 => iv512
  | .sha3 => List.replicate 25 0

/-- Absorb one block. -/
def Alg.absorb1 (g : Alg) (st : List W64) (b : List Byte) : List W64 :=
  match g with
  | .sha256 | .hmac256 =>
    (shaBlock amounts256 k256 (st.map fun x => x.setWidth 32) (beWords 32 4 b)).map fun x => x.setWidth 64
  | .sha512 | .hmac512 => shaBlock amounts512 k512 st (beWords 64 8 b)
  | .sha3 => keccakBlock st b

/-- Absorb whole blocks. -/
def Alg.absorb (g : Alg) (st : List W64) (b : List Byte) : List W64 :=
  (List.range (b.length / g.block)).foldl (fun st i => g.absorb1 st ((b.drop (g.block * i)).take g.block)) st

/-- The digest that a chaining state gives. -/
def Alg.out (g : Alg) (st : List W64) : List Byte :=
  match g with
  | .sha256 | .hmac256 => st.flatMap fun x => beBytes 4 x.toNat
  | .sha512 | .hmac512 => st.flatMap fun x => beBytes 8 x.toNat
  | .sha3 => (st.take 4).flatMap fun x => leBytes 8 x.toNat

/-- The padding that FIPS 180-4 and FIPS 202 give a message of n bytes, behind `pre` bytes already absorbed (R443). -/
def Alg.padding (g : Alg) (pre n : Nat) : List Byte :=
  match g with
  | .sha3 =>
    let r := 136 - n % 136
    if r = 1 then [0x86] else 0x06 :: zeros (r - 2) ++ [0x80]
  | _ =>
    let l := g.block / 8
    let z := (2 * g.block - 1 - l - n % g.block) % g.block
    0x80 :: zeros z ++ beBytes l (8 * (pre + n))

/-- The digest of a whole message, unkeyed. -/
def Alg.hash (g : Alg) (msg : List Byte) : List Byte := g.out (g.absorb g.init (msg ++ g.padding 0 msg.length))

/-- The key block of an HMAC mode, XORed with a pad byte (R444). -/
def Alg.keyBlock (g : Alg) (key : BitVec 256) (pad : Byte) : List Byte :=
  (leBytes 32 key.toNat ++ zeros (g.block - 32)).map (· ^^^ pad)

/-- The outer pass of an HMAC mode over an inner digest (R444). -/
def Alg.outer (g : Alg) (key : BitVec 256) (inner : List Byte) : List Byte :=
  let msg := g.keyBlock key 0x5C ++ inner
  g.out (g.absorb g.init (msg ++ g.padding 0 msg.length))

/-- HMAC of a message under a 32-byte key (R340, R453). -/
def Alg.mac (g : Alg) (key : BitVec 256) (msg : List Byte) : List Byte :=
  let inner := g.keyBlock key 0x36 ++ msg
  g.outer key (g.out (g.absorb g.init (inner ++ g.padding 0 inner.length)))

end Sys2Proof.Machine
end

