-- ==== Sys2Proof/Machine/Media.lean ====
section
/-! DEFINITION. Media translation: map entries, sets and stripes, images, the journal, and the contents that a READ, a WRITE or a move
takes from the media (R309 to R317, R329 to R333, R339 to R346). -/

namespace Sys2Proof.Machine

/-! ## Keys and entries (R309 to R312, R339) -/

/-- Index of namespace n of slice s. -/
def nsKey (s n : Nat) : Nat := 16 * s + n
/-- Key of a coarse map entry. -/
def coarseKey (s n g : Nat) : Nat := nsKey s n * 2 ^ 30 + g
/-- Key of a fine map entry. -/
def fineKey (s n l : Nat) : Nat := nsKey s n * 2 ^ 38 + l
/-- Key of a grain or of a block of a fine namespace. -/
def mapKey (fine : Bool) (s n x : Nat) : Nat := if fine then fineKey s n x else coarseKey s n x
/-- Namespace index and grain or block that a key names. -/
def unkey (fine : Bool) (k : Nat) : Nat × Nat := let b := 2 ^ (if fine then 38 else 30); (k / b, k % b)

/-- A location on the media: die, block, page, and byte in the page. -/
structure Place where
  die   : Nat
  block : Nat
  page  : Nat
  off   : Nat
deriving DecidableEq, Repr

/-- A coarse entry (R310). -/
def entryWord (cls : Nat) (p : Place) (slen : Nat) : W64 :=
  at_ 61 cls ||| at_ 50 p.die ||| at_ 36 p.block ||| at_ 24 p.page ||| at_ 14 (p.off / 16) ||| at_ 0 slen
/-- CLASS of a coarse entry. -/
def entryClass (e : W64) : Nat := fld e 63 61
/-- Location of a coarse entry. -/
def entryPlace (e : W64) : Place := { die := fld e 60 50, block := fld e 49 36, page := fld e 35 24, off := 16 * fld e 23 14 }
/-- Does a coarse entry meet the rules of its class (R312)? -/
def entryOk (e : W64) : Bool :=
  match entryClass e with
  | 1 => fld e 23 14 % 4 == 0 && decide (1 ≤ fld e 13 0) && decide (fld e 13 0 ≤ 16128)
  | 2 => fld e 23 0 == 0
  | 5 => fld e 23 14 % 4 == 0 && fld e 13 0 == 0
  | 0 | 3 | 4 => fld e 60 0 == 0
  | _ => false

/-- Entry bits [47:0] of a fine slot (R339). -/
def fineWord (gen : Nat) (p : Place) : W64 :=
  at_ 40 (gen % 256) ||| at_ 29 p.die ||| at_ 15 p.block ||| at_ 3 p.page ||| at_ 0 (p.off / 4096)
/-- A fine entry that is ZERO, and one that is POISONED, with a generation. -/
def fineZero (gen : Nat) : W64 := at_ 40 (gen % 256) ||| at_ 29 0x7FF
def finePoison (gen : Nat) : W64 := at_ 40 (gen % 256) ||| at_ 29 0x7FE
/-- GEN of a fine entry. -/
def fineGen (e : W64) : Nat := fld e 47 40
/-- DIE of a fine entry. -/
def fineDie (e : W64) : Nat := fld e 39 29
/-- Location of a fine entry. -/
def finePlace (e : W64) : Place := { die := fineDie e, block := fld e 28 15, page := fld e 14 3, off := 4096 * fld e 1 0 }

/-- The entry of a key: UNMAPPED, or in a fine namespace ZERO with GEN 0, where nothing has been written. -/
def Mach.entry (m : Mach) (fine : Bool) (k : Nat) : W64 :=
  if fine then tget (fineZero 0) m.map.fine k else tget 0 m.map.coarse k
/-- The location that an entry names, if it names one. -/
def entryLoc (fine : Bool) (e : W64) : Option Place :=
  if fine then (if fineDie e < 1536 then some (finePlace e) else none)
  else match entryClass e with
    | 1 | 2 | 5 => some (entryPlace e)
    | _ => none
/-- Number of a fine slot on the media. -/
def Place.slot (p : Place) : Nat := ((p.die * 16384 + p.block) * 4096 + p.page) * 4 + p.off / 4096
/-- Change the entry of a key. In a fine namespace the live bit of the slot it named clears, and that of the slot it names sets (R341). -/
def Mach.setEntry (m : Mach) (fine : Bool) (k : Nat) (e : W64) : Mach :=
  if fine then
    let was := (entryLoc true (m.entry true k)).map Place.slot
    let live := (m.map.live.filter fun x => some x != was) ++ ((entryLoc true e).map Place.slot).toList
    { m with map := { m.map with fine := tset m.map.fine k e, live := live } }
  else { m with map := { m.map with coarse := tset m.map.coarse k e } }
/-- Is an entry POISONED? -/
def isPoison (fine : Bool) (e : W64) : Bool := if fine then fineDie e == 0x7FE else entryClass e == 4

/-- The map page or fine segment of a key, and whether it is loaded (R338). -/
def Mach.loaded (m : Mach) (fine : Bool) (k : Nat) : Bool :=
  if fine then !m.map.coldSeg.contains (k / 512) else !m.map.cold.contains (k / 256)

/-! ## The journal (R330 to R333) -/

/-- Record types that close their page at once (R333). -/
def urgentType (t : Nat) : Bool := t == 3 || t == 0xA || t == 0xB || t == 0xC || t == 0xE

/-- The low-water mark: the lowest LSN landed whose map update is not in a durable record, else the next LSN (R332). -/
def Mach.lowWater (m : Mach) : Nat :=
  let a := (m.map.work.filter fun g => g.landed && !g.mapped && g.kind != .zero).map (·.lsn)
  let recs := m.map.jopen ++ m.map.jqueue.flatMap (·.recs)
  let b := (recs.filter fun r => r.typ == 1 || r.typ == 2).map fun r => r.w3.toNat
  (a ++ b).foldl Nat.min m.map.lsn

/-- Close the open journal page: it waits to be written (R333). -/
def Mach.closeJournal (m : Mach) : Mach :=
  if m.map.jopen.isEmpty then m
  else
    let p : JPage := { recs := m.map.jopen, lwm := m.lowWater, stamp := m.tb, boot := m.map.boot }
    { m with map := { m.map with jqueue := m.map.jqueue ++ [p], jopen := [] } }

/-- Append a record with the next JSN; a full page, and one with an urgent record, is closed (R330, R333). -/
def Mach.jrec (m : Mach) (typ ns slice : Nat) (w1 w2 w3 : W64) : Mach :=
  let r : JRec := { jsn := m.map.jsn + 1, typ := typ, ns := ns, slice := slice, w1 := w1, w2 := w2, w3 := w3 }
  let j := m.map.jopen ++ [r]
  let m1 : Mach := { m with map := { m.map with jsn := m.map.jsn + 1, jopen := j,
                                                jopenAt := if m.map.jopen.isEmpty then m.tb else m.map.jopenAt } }
  if decide (255 ≤ j.length) || urgentType typ then m1.closeJournal else m1

/-- An entry of the media log (R352). -/
def Mach.mediaLog (m : Mach) (event slice ns arg : Nat) : Mach :=
  { m with map := { m.map with log := m.map.log ++ [{ stamp := m.tb, event := event, slice := slice, ns := ns, arg := arg }] } }

/-- A defect enters the table: a DEFECT record and event 1017 (R344). -/
def Mach.addDefect (m : Mach) (die block : Nat) (whole : Bool) (kind : Nat) : Mach :=
  let d : Defect := { die := die, block := block, whole := whole, kind := kind }
  if m.map.defects.any fun x => x.die == die && (x.whole || (!whole && x.block == block)) then m
  else
    let m1 : Mach := { m with map := { m.map with defects := m.map.defects ++ [d], defGen := m.map.defGen + 1 } }
    ((m1.jrec 0xB 0 0 (flagAt 63 whole ||| at_ 14 die ||| at_ 0 block) (w64 kind) (w64 (m.map.defGen + 1))).raise 1017).mediaLog
      1017 0 0 (die * 16384 + block)

/-! ## Sets and stripes (R313) -/

/-- Number of a page of the media. -/
def pageKey (d b p : Nat) : Nat := (d * 16384 + b) * 4096 + p
/-- Die of a page number. -/
def keyDie (k : Nat) : Nat := k / 67108864
/-- Block of a page number. -/
def keyBlock (k : Nat) : Nat := k / 4096 % 16384

/-- Data positions of a stripe (R313, R341). -/
def MSet.width (s : MSet) : Nat := if s.fine then 30 else 31
/-- Stripes of a set: SLC pages in a landing set, dense pages otherwise (R313, R362). -/
def Mach.setPages (m : Mach) (s : MSet) : Nat :=
  match s.members with
  | [] => 0
  | (d, _) :: _ => let x := m.die d; if s.landing then x.wls else x.wls * (3 + x.kind)
/-- Number of the page at a position of a stripe. -/
def MSet.key (s : MSet) (stripe pos : Nat) : Option Nat := (s.members[pos]?).map fun b => pageKey b.1 b.2 stripe
/-- The set and position of a block. -/
def Mach.setAt (m : Mach) (die block : Nat) : Option (Nat × MSet × Nat) :=
  m.map.sets.findSome? fun e => (e.2.members.findIdx? fun b => b == (die, block)).map fun i => (e.1, e.2, i)
/-- The set and position of a page, with its stripe. -/
def Mach.setOfKey (m : Mach) (k : Nat) : Option (Nat × MSet × Nat × Nat) :=
  (m.setAt (keyDie k) (keyBlock k)).map fun x => (x.1, x.2.1, k % 4096, x.2.2)

/-- Is a die in service? -/
def Mach.dieUp (m : Mach) (d : Nat) : Bool := (m.die d).state == .inService
/-- A page as the media give it: programmed and verified, on a die in service. -/
def Mach.page? (m : Mach) (k : Nat) : Option PageData :=
  if m.dieUp (keyDie k) then (tget? m.fch.pages k).bind fun p => if p.verified then some p.data else none else none

/-- XOR of pages. -/
def xorPages (l : List PageData) : PageData := l.foldl (fun a p => (a.zip p).map fun x => x.1 ^^^ x.2) (zeros 16384)
/-- A page as its stripe gives it: the XOR of the other 31 (R329). -/
def Mach.rebuild (m : Mach) (s : MSet) (stripe pos : Nat) : Option PageData :=
  let others := ((List.range 32).filter (· != pos)).map fun i => (s.key stripe i).bind m.page?
  if others.all Option.isSome then some (xorPages (others.filterMap id)) else none
/-- A page read, or rebuilt from its stripe. -/
def Mach.pageData (m : Mach) (k : Nat) : Option PageData :=
  (m.page? k).or (match m.setOfKey k with
    | some (_, s, stripe, pos) => m.rebuild s stripe pos
    | none => none)

/-- Pages of a set that [off, off + n) of the stream from (stripe, pos) covers. -/
def MSet.span (s : MSet) (stripe pos off n : Nat) : List (Nat × Nat) :=
  (List.range (ceilDiv (off + n) 16384)).map fun i => let x := stripe * s.width + pos + i; (x / s.width, x % s.width)

/-! ## Forming and closing sets (R313, R317, R326) -/

/-- Is a block in the grown-defect table? -/
def Mach.defective (m : Mach) (d b : Nat) : Bool := m.map.defects.any fun x => x.die == d && (x.whole || x.block == b)
/-- The lowest block of a die that no set holds and that has no defect. -/
def Mach.freeBlock (m : Mach) (d : Nat) : Option Nat :=
  let used := m.map.sets.flatMap fun e => if e.2.state = .retired then [] else
    (e.2.members.filter fun b => b.1 == d).map (·.2)
  (List.range (m.die d).blocks).find? fun b => !used.contains b && !m.defective d b
/-- A free block of a channel, on its lowest die in service that has one. -/
def Mach.chanBlock (m : Mach) (c : Nat) : Option (Nat × Nat) :=
  ((List.range 16).map fun k => 16 * c + k).findSome? fun d =>
    if m.dieUp d then (m.freeBlock d).map fun b => (d, b) else none
/-- Blocks that no set holds, on dies in service. -/
def Mach.looseBlocks (m : Mach) : Nat :=
  let all := ((m.fch.dies.filter fun e => e.2.state == .inService).map fun e => e.2.blocks).sum
  let held := (m.map.sets.filter fun e => e.2.state != .retired).foldl (fun n e => n + (e.2.members.filter fun b => m.dieUp b.1).length) 0
  all - held - (m.map.defects.filter fun x => !x.whole && m.dieUp x.die).length
/-- Free sets: those of the set table, and those that loose blocks still make where 32 channels have dies (R313, R346). -/
def Mach.freeSets (m : Mach) : Nat :=
  let ch := ((List.range 96).filter fun c => (m.chanBlock c).isSome).length
  (m.map.sets.filter fun e => e.2.state == .free).length + (if 32 ≤ ch then m.looseBlocks / 32 else 0)
/-- All sets: free ones and those in use. -/
def Mach.allSets (m : Mach) : Nat := m.freeSets + (m.map.sets.filter fun e => e.2.state != .free && e.2.state != .retired).length
/-- Landing sets in use (R322). -/
def Mach.landUse (m : Mach) : Nat :=
  (m.map.sets.filter fun e => e.2.landing && (match e.2.state with | .open_ | .closed | .erasing => true | _ => false)).length

/-- Code of a set's state in its SET record (R331). -/
def SetState.code : SetState → Nat
  | .open_ => 1 | .closed => 2 | .erasing => 3 | .free => 4 | .retired => 5
/-- A set changes its state: a SET record (R331). -/
def Mach.setState (m : Mach) (n : Nat) (st : SetState) : Mach :=
  match m.mset? n with
  | none => m
  | some s =>
    (m.setMset n { s with state := st }).jrec 9 0 0
      (at_ 60 st.code ||| at_ 58 s.cls ||| flagAt 57 s.fine ||| flagAt 56 s.landing ||| at_ 0 n) 0 0

/-- Take a new set: a FREE one of the table, or 32 loose blocks on 32 channels; which ones R49 leaves open. -/
def Mach.newSet (m : Mach) (landing fine : Bool) (quad cls : Nat) : Option (Nat × Mach) :=
  let fresh := fun (mem : List (Nat × Nat)) =>
    ({ members := mem, state := .open_, cls := cls, fine := fine, landing := landing, quad := quad, stripe := 0, pos := 0, off := 0,
       lastAt := 0, victim := false, toErase := [] } : MSet)
  let ok := m.map.sets.filter fun e => e.2.state == .free && e.2.members.all fun b => m.dieUp b.1
  match ok with
  | e :: _ => some (e.1, (m.setMset e.1 (fresh e.2.members)).setState e.1 .open_)
  | [] =>
    let ch := (List.range 96).filterMap fun c => m.chanBlock c
    if ch.length < 32 then none
    else
      let (r, m1) := m.draw ch.length
      let mem := ((ch ++ ch).drop r).take 32
      let n := nthFree 0 0 (m.map.sets.map (·.1))
      some (n, (m1.setMset n (fresh mem)).setState n .open_)

/-- The open set of a kind, in a quadrant and class. -/
def Mach.openSet (m : Mach) (landing fine : Bool) (quad cls : Nat) : Option (Nat × MSet) :=
  m.map.sets.find? fun e => e.2.state == .open_ && e.2.landing == landing && e.2.fine == fine && e.2.quad == quad && e.2.cls == cls

/-! ## Die queues (R366) -/

/-- Enter an operation in its die's queue. -/
def Mach.enqueue (m : Mach) (d : Nat) (op : DieOp) : Mach := m.setDie d { m.die d with queue := (m.die d).queue ++ [op] }

/-- A landing program of a staged page. -/
def landOp (m : Mach) (k : Nat) (slice : Option Nat) (lsn : Nat) : DieOp :=
  { kind := .slcProgram, cls := 2, block := keyBlock k, page := k % 4096, slice := slice, at_ := m.tb, why := .land lsn }

/-- A staged page goes to the media: a landing page as a program of its die, a dense page at its commit (R324). -/
def Mach.programPage (m : Mach) (landing : Bool) (k : Nat) (data : PageData) (slice : Option Nat) (lsn : Nat) : Mach :=
  let m1 : Mach := { m with fch := { m.fch with pages := tset m.fch.pages k { data := data, slc := landing, verified := !landing } } }
  if landing then m1.enqueue (keyDie k) (landOp m k slice lsn) else m1

/-- The parity of a stripe whose other pages are all programmed and verified is programmed once (R313, R317). -/
def Mach.parity (m : Mach) (n stripe : Nat) : Mach :=
  match m.mset? n with
  | none => m
  | some s =>
    let data := (List.range 31).map fun i => (s.key stripe i).bind m.page?
    match s.key stripe 31 with
    | none => m
    | some k =>
      if data.all Option.isSome && (tget? m.fch.pages k).isNone then
        m.programPage s.landing k (xorPages (data.filterMap id)) none 0
      else m

/-- Are all 32 pages of a stripe programmed and verified (R317)? -/
def Mach.stripeClosed (m : Mach) (s : MSet) (stripe : Nat) : Bool :=
  (List.range 32).all fun i => match s.key stripe i with
    | none => false
    | some k => ((tget? m.fch.pages k).map (·.verified)).getD false

/-- The page under construction at a set's place. -/
def Mach.staged (m : Mach) (s : MSet) : PageData :=
  match s.key s.stripe s.pos with
  | none => []
  | some k => if s.off = 0 then [] else ((tget? m.fch.pages k).map (·.data)).getD []

/-- Write a run of bytes at a set's place, page by page; a page that fills is programmed, and a stripe that fills takes its summary and
parity (R313, R315, R317, R341). -/
def Mach.stage (m : Mach) (n : Nat) (slice : Option Nat) (lsn : Nat) : Nat → List Byte → Mach
  | 0, _ => m
  | f + 1, l =>
    match l, m.mset? n with
    | [], _ => m
    | _, none => m
    | l, some s =>
      match s.key s.stripe s.pos with
      | none => m
      | some k =>
        let room := 16384 - s.off
        let data := m.staged s ++ l.take room
        if l.length < room then
          let m1 : Mach := { m with fch := { m.fch with pages := tset m.fch.pages k { data := data, slc := s.landing, verified := false } } }
          m1.setMset n { s with off := s.off + l.length, lastAt := m.tb }
        else
          let m1 := m.programPage s.landing k data slice lsn
          let last := decide (s.width ≤ s.pos + 1)
          let s1 := { s with off := 0, pos := if last then 0 else s.pos + 1, stripe := if last then s.stripe + 1 else s.stripe, lastAt := m.tb }
          let m2 := m1.setMset n s1
          let m3 := if last then
              let m2 := if s.fine then
                  (match s.key s.stripe 30 with
                   | some ks =>
                     let tags := ((tget? m2.fch.pages ks).map (·.data)).getD []
                     m2.programPage s.landing ks (tags ++ zeros (16384 - tags.length)) slice lsn
                   | none => m2)
                else m2
              m2.parity n s.stripe
            else m2
          Mach.stage m3 n slice lsn f (l.drop room)

/-- Fill a partly used stripe with zero bytes, so that it can close (R317). -/
def Mach.fillStripe (m : Mach) (n : Nat) : Mach :=
  match m.mset? n with
  | none => m
  | some s =>
    if s.pos = 0 ∧ s.off = 0 then m
    else m.stage n none 0 33 (zeros (16384 - s.off + (s.width - 1 - s.pos) * 16384))

/-- A set takes no more data: its stripe is filled, and it is CLOSED. -/
def Mach.closeSet (m : Mach) (n : Nat) : Mach := (m.fillStripe n).setState n .closed

/-- Bytes that a set can still take. -/
def Mach.roomIn (m : Mach) (s : MSet) : Nat :=
  (m.setPages s * s.width - (s.stripe * s.width + s.pos)) * 16384 - s.off

/-- A new set for data: within the limit on landing sets (R322), and, but for reclaim, above the reserve (R347). -/
def Mach.moreSet (m : Mach) (landing fine spare : Bool) (quad cls : Nat) : Option (Nat × Mach) :=
  if (landing && decide (m.map.landMax ≤ m.landUse)) || (!spare && decide (m.freeSets ≤ m.map.reserve)) then none
  else m.newSet landing fine quad cls

/-- A set with room for n bytes: the open one, or a new one behind it. -/
def Mach.setFor (m : Mach) (landing fine spare : Bool) (quad cls n : Nat) : Option (Nat × Mach) :=
  match m.openSet landing fine quad cls with
  | some (k, s) => if n ≤ m.roomIn s then some (k, m) else (m.closeSet k).moreSet landing fine spare quad cls
  | none => m.moreSet landing fine spare quad cls

/-- Put bytes into a set of a kind, from a 64 B boundary, from a page boundary for a raw image in a dense set. `spare` says that sets of the reserve serve too. Gives the set and place. -/
def Mach.place (m : Mach) (landing fine paged spare : Bool) (quad cls : Nat) (slice : Option Nat) (lsn : Nat) (l : List Byte) :
    Option (Nat × Nat × Nat × Nat × Mach) :=
  match m.setFor landing fine spare quad cls (l.length + 32768) with
  | none => none
  | some (n, m1) =>
    let unit := if paged then 16384 else if fine then 4096 else 64
    let m2 := match m1.mset? n with
      | some s => if s.off % unit = 0 then m1 else m1.stage n slice lsn 2 (zeros (unit - s.off % unit))
      | none => m1
    match m2.mset? n with
    | none => none
    | some s => some (n, s.stripe, s.pos, s.off, m2.stage n slice lsn (l.length / 16384 + 3) l)

/-! ## The use of a key (R452) -/

/-- Is a slot open to a caller for one of some usages (R452)? -/
def Key.open_ (v : Key) (ring : Ring) (slice : Nat) (us : List Usage) : Bool :=
  v.valid && us.contains v.usage && decide (ring.code ≤ v.ring) &&
    (match ring with
     | .r0 => true
     | .r1 => !v.slown
     | .r2 => v.slown && v.slice == slice)

/-- A use of slot k. A slot whose complement disagrees raises event 614 and the key-slot alarm, and reads as not VALID from then on
(R452): none. Otherwise whether R452 permits the use. -/
def Mach.useKey (m : Mach) (k : Nat) (ring : Ring) (slice : Nat) (us : List Usage) : Mach × Option Bool :=
  let v := m.key k
  if v.cplOk then (m, some (v.open_ ring slice us))
  else (((m.setKey k { v with valid := false, cplOk := true }).raise 614).alarm 11 (0x200B08000 + 8 * k), none)

/-! ## Images (R314, R315, R339) -/

/-- The media key pair of a namespace (R293). -/
def Mach.mediaKeys (m : Mach) (s n : Nat) : BitVec 256 × BitVec 256 :=
  let k := (m.slice s).desc.ksfirst + 1 + 2 * n
  ((m.key k).value, (m.key (k + 1)).value)

/-- Parameters of the namespace's profile (R417). -/
def nsParams (s n : Nat) : GParam :=
  let p := Config.profile s n
  let g : GParam := { esz := 2 ^ (p.1 % 4), pred := p.2.1 % 5, stride := p.2.2.1, row := p.2.2.2 }
  if (g.badAt 0 0 0 0).isNone then g else GParam.of 0 0 0

/-- The image of a grain's content before encryption, and whether it is RAW (R314). -/
def formImage (s n : Nat) (content : List Byte) : List Byte × Bool :=
  let f := (nsParams s n).frame content
  if f.length ≤ 1032192 then (f ++ zeros (roundUp f.length 64 - f.length), false) else (content, true)

/-- Encrypt or decrypt an image, or a fine block (R432). -/
def Mach.mediaXts (m : Mach) (enc : Bool) (s n tweak : Nat) (b : List Byte) : List Byte :=
  let k := m.mediaKeys s n
  xts enc k.1 k.2 4096 tweak b

/-- A unit's self-check fails on a command's data: its engine counts it and raises its event, and a cipher pair raises its alarm (R412,
R417, R425, R432). -/
def Mach.unitFault (m : Mach) (f : UnitFault) : Mach :=
  let count := fun (p : Nat) => m.setEngine p { m.engine p with err0 := up16 (m.engine p).err0 }
  match f with
  | .groat e => (count (0x10 + e)).raise (512 + 8 * e + 3)
  | .cipher q => ((count (0x20 + q)).raise (576 + 8 * q + 1)).alarm 10 (0x20 + q)

/-- The status that a failed self-check ends a command with. -/
def UnitFault.status : UnitFault → Nat
  | .groat _ => 0x0401
  | .cipher _ => 0x0407

/-- A pass of a command's data through a cipher pair under the media keys of a namespace: the uses of both keys (R430, R452), then the
pair's check. Gives the status that ends the command, 0 where the data pass. -/
def Mach.mediaPass (m : Mach) (s n : Nat) (fault : Option (Fin 4)) : Mach × Nat :=
  let k := (m.slice s).desc.ksfirst + 1 + 2 * n
  match m.useKey k .r0 0 [.xts1] with
  | (m1, none) => (m1, 0x0304)
  | (m1, some false) => (m1, 0x0105)
  | (m1, some true) =>
    match m1.useKey (k + 1) .r0 0 [.xts2] with
    | (m2, none) => (m2, 0x0304)
    | (m2, some false) => (m2, 0x0105)
    | (m2, some true) =>
      match fault with
      | some q => (m2.unitFault (.cipher q), 0x0407)
      | none => (m2, 0)

/-- The landing header of an image (R315). -/
def landHeader (raw : Bool) (ns slice : Nat) (warm : Bool) (grain boot asn ilen lsn : Nat) : List Byte :=
  let h := leBytes 4 0x444E414C ++ [if raw then 2 else 1, BitVec.ofNat 8 ns, BitVec.ofNat 8 slice, if warm then 1 else 0] ++
    leBytes 4 grain ++ leBytes 4 boot ++ leBytes 4 asn ++ leBytes 4 ilen ++ leBytes 8 lsn ++ zeros 28
  h ++ leBytes 4 (crc32c h)

/-- The tag of a fine slot (R341). -/
def slotTag (slice ns gen boot lba asn lsn : Nat) : List Byte :=
  let h := [BitVec.ofNat 8 slice, BitVec.ofNat 8 ns, BitVec.ofNat 8 gen, 0] ++ leBytes 4 boot ++ leBytes 8 lba ++ leBytes 4 asn ++
    leBytes 8 lsn
  h ++ leBytes 4 (crc32c h)

/-- Enter the tag of a slot in the summary under construction of its stripe. -/
def Mach.putTag (m : Mach) (n stripe pos off : Nat) (tag : List Byte) : Mach :=
  match (m.mset? n).bind fun s => s.key stripe 30 with
  | none => m
  | some k =>
    let old := ((tget? m.fch.pages k).map (·.data)).getD (zeros 16384)
    let o := 32 * (4 * pos + off / 4096)
    let v := ((tget? m.fch.pages k).map (·.verified)).getD false
    { m with fch := { m.fch with pages := tset m.fch.pages k { data := old.take o ++ tag ++ old.drop (o + 32), slc := true, verified := v } } }

/-- Where an image's bytes stand: its set and place, its length, and whether it is RAW. -/
structure Extent where
  set    : Nat
  stripe : Nat
  pos    : Nat
  off    : Nat
  len    : Nat
  raw    : Bool
deriving DecidableEq, Repr

/-- Where the image of an entry stands. A BUFFERED entry names a landing header, and the image follows it (R311, R315). -/
def Mach.extent (m : Mach) (fine : Bool) (e : W64) : Option Extent :=
  match entryLoc fine e with
  | none => none
  | some p =>
    match m.setAt p.die p.block with
    | none => none
    | some (n, _, i) =>
      let x : Extent := { set := n, stripe := p.page, pos := i, off := p.off, len := 4096, raw := true }
      if fine then some x
      else match entryClass e with
        | 1 => some { x with len := 64 * fld e 13 0, raw := false }
        | 2 => some { x with len := 1048576 }
        | _ =>
          match m.map.imgs.find? fun g => g.set == n && g.stripe == p.page && g.pos == i && g.off == p.off with
          | some g => some { x with off := p.off + 64, len := g.ilen, raw := g.raw }
          | none => none

/-- Numbers of the pages that an image occupies. -/
def Mach.extentKeys (m : Mach) (x : Extent) : List Nat :=
  match m.mset? x.set with
  | none => []
  | some s => (s.span x.stripe x.pos x.off x.len).filterMap fun y => s.key y.1 y.2

/-- The stored bytes of an image, from a source of pages; none where a page is missing. -/
def Mach.extentBytes (m : Mach) (src : Nat → Option PageData) (x : Extent) : Option (List Byte) :=
  let ps := (m.extentKeys x).map src
  if ps.all Option.isSome then some ((((ps.filterMap id).flatten).drop x.off).take x.len) else none

/-- The content of a grain from its decrypted image. -/
def openImage (raw : Bool) (b : List Byte) : Option (List Byte) :=
  if raw then some b
  else match gHeader b.toArray with
    | .error _ => none
    | .ok (g, n) =>
      match gDecode b.toArray g n with
      | (d, none) => some d
      | _ => none

/-- The content that the media hold for an entry: a grain, or a block of a fine namespace; none where it cannot be recovered. -/
def Mach.contentOf (m : Mach) (src : Nat → Option PageData) (fine : Bool) (s n x : Nat) (e : W64) : Option (List Byte) :=
  if isPoison fine e then none
  else match entryLoc fine e with
    | none => some (zeros (if fine then 4096 else 1048576))
    | some _ =>
      match (m.extent fine e).bind fun t => (m.extentBytes src t).map fun b => (t, b) with
      | none => none
      | some (t, b) => openImage (fine || t.raw) (m.mediaXts false s n (if fine then x else 256 * x) b)

/-! ## Sources of a block (R271, R314) -/

/-- The latest earlier write that has formed the content of a grain (or fine block) and not made its map update. -/
def Mach.formed (m : Mach) (asn s n x : Nat) : Option WGrain :=
  (m.map.work.filter fun g => g.slice == s && g.ns == n && g.grain == x && !g.mapped && asnBefore g.asn asn).getLast?

/-- The content of a formed grain: a ZERO grain keeps none. -/
def WGrain.bytes (g : WGrain) : List Byte := if g.kind = .zero then zeros (if g.fine then 4096 else 1048576) else g.content

/-- An earlier write covers block b and has not yet formed its grain: a reader waits for it (R272, R314). -/
def Mach.unformed (m : Mach) (asn s n b : Nat) : Bool :=
  let fine := m.isFine s n
  m.hq.cmds.any fun e =>
    let c := e.2
    writes c.ent.opc && c.owner == some s && c.ent.nsid == n && c.stopReq.isNone && asnBefore c.asn asn && decide (c.ent.lba ≤ b) &&
      decide (b < c.ent.lba + c.ent.nblk) && decide (c.count ≤ b / unitBlocks fine - (c.grains fine).1)

/-- The content that a reader of acceptance number asn finds for grain (or fine block) x: of the latest earlier write, or of the media. -/
def Mach.contentAt (m : Mach) (src : Nat → Option PageData) (asn s n x : Nat) : Option (List Byte) :=
  match m.formed asn s n x with
  | some g => some g.bytes
  | none => let f := m.isFine s n; m.contentOf src f s n x (m.entry f (mapKey f s n x))

/-- The pages that reading a grain takes from the media: none where an earlier write holds its content. -/
def Mach.pagesFor (m : Mach) (asn s n x : Nat) : List Nat :=
  match m.formed asn s n x with
  | some _ => []
  | none =>
    let f := m.isFine s n
    match m.extent f (m.entry f (mapKey f s n x)) with
    | none => []
    | some t => m.extentKeys t

/-! ## Loss (R329) -/

/-- A page that stays uncorrectable is rebuilt from its stripe: event 1014, and its set is queued for reclaim. -/
def Mach.noteRebuild (m : Mach) (k : Nat) : Mach :=
  if (m.page? k).isSome then m
  else match m.setOfKey k with
    | none => m
    | some (n, s, stripe, pos) =>
      if (m.rebuild s stripe pos).isSome then ((m.setMset n { s with victim := true }).raise 1014).mediaLog 1014 0 0 k else m

/-- Is a page out of reach only because its die is unavailable (R386)? -/
def Mach.awayOnly (m : Mach) (k : Nat) : Bool :=
  match m.setOfKey k with
  | none => false
  | some (_, s, stripe, _) =>
    (List.range 32).any fun i => match s.key stripe i with
      | some j => (m.die (keyDie j)).state == .unavailable
      | none => false

/-- A grain or slot that cannot be recovered becomes POISONED, with a POISON record and event 1016. -/
def Mach.poisonKey (m : Mach) (fine : Bool) (k : Nat) : Mach :=
  let e := m.entry fine k
  let p := if fine then finePoison (fineGen e) else at_ 61 4
  let (x, g) := unkey fine k
  if e = p then m
  else (((m.setEntry fine k p).jrec 6 (x % 16) (x / 16) (w64 g) p e).raise 1016).mediaLog 1016 (x / 16) (x % 16) g

/-- What becomes of a grain whose content could not be read (R329, R386). -/
def Mach.lostGrain (m : Mach) (s n x : Nat) : Mach :=
  let f := m.isFine s n
  let k := mapKey f s n x
  let e := m.entry f k
  let away := match m.extent f e with
    | some t => (m.extentKeys t).any fun p => (m.pageData p).isNone && m.awayOnly p
    | none => false
  if away || isPoison f e then m else m.poisonKey f k

/-! ## Usage and seals (R347, R352) -/

/-- Stored units of an entry, in 64 B. -/
def Mach.usageOf (m : Mach) (fine : Bool) (e : W64) : Nat :=
  if fine then (if fineDie e < 1536 then 64 else 0)
  else match entryClass e with
    | 1 => fld e 13 0
    | 2 => 16384
    | 5 => ((m.extent false e).map fun x => x.len / 64).getD 16384
    | _ => 0

/-- MAP_NSUSE of a namespace. -/
def Mach.nsUse (m : Mach) (s n : Nat) : Nat :=
  let f := m.isFine s n
  let b := if f then 2 ^ 38 else 2 ^ 30
  let t := if f then m.map.fine else m.map.coarse
  ((t.filter fun e => e.1 / b == nsKey s n).map fun e => m.usageOf f e.2).sum

/-- Is a namespace sealed read-only? -/
def Mach.sealed (m : Mach) (s n : Nat) : Bool := m.map.modSeal || m.map.seals.contains (nsKey s n)

/-- Seal a namespace: a SEAL record and event 1007. -/
def Mach.sealNs (m : Mach) (s n : Nat) : Mach :=
  if m.map.seals.contains (nsKey s n) then m
  else ((Mach.jrec { m with map := { m.map with seals := m.map.seals ++ [nsKey s n] } } 0xC n s 1 0 0).raise 1007).mediaLog 1007 s n 0
/-- Seal the module: a SEAL record and event 1008. -/
def Mach.sealModule (m : Mach) : Mach :=
  if m.map.modSeal then m else ((Mach.jrec { m with map := { m.map with modSeal := true } } 0xC 0 0 3 0 0).raise 1008).mediaLog 1008 0 0 0

/-- Free sets above the reserve, in thousandths of all sets (R346). -/
def Mach.spare (m : Mach) : Nat := if m.allSets = 0 then 0 else (m.freeSets - m.map.reserve) * 1000 / m.allSets

/-- Spare falls below a bound: event 1004, 1005 or 1006 once, and a log entry; the warning code follows the spare (R346). -/
def Mach.spareCheck (m : Mach) : Mach :=
  let p := m.spare
  let w := if p < 20 then 3 else if p < 50 then 2 else if p < 100 then 1 else 0
  let m1 : Mach := { m with map := { m.map with warn := w } }
  if m.map.warn < w then ((List.range (w - m.map.warn)).map (· + m.map.warn)).foldl (fun m i => (m.raise (1004 + i)).mediaLog (1004 + i) 0 0 p) m1
  else m1

/-! ## Fine seals (R340, R342) -/

/-- The seal of a fine entry's bits [47:0]. -/
def Mach.sealOf (m : Mach) (s n l : Nat) (e : W64) : Nat :=
  leNat (((Alg.mac .hmac256 (m.key 4).value)
    ([BitVec.ofNat 8 s, BitVec.ofNat 8 n] ++ zeros 6 ++ leBytes 8 l ++ leBytes 8 (fld e 47 0))).take 2)

/-- A fine entry with its seal, as segments show it. -/
def Mach.sealedEntry (m : Mach) (s n l : Nat) : W64 :=
  let e := m.entry true (fineKey s n l)
  at_ 48 (m.sealOf s n l e) ||| at_ 0 (fld e 47 0)

/-- Does the host's entry serve for a block: a true seal, and a live slot or the HK96's own ZERO or POISONED entry (R342)? -/
def Mach.hintGood (m : Mach) (s n l : Nat) (h : W64) : Bool :=
  fld h 63 48 == m.sealOf s n l h && fld h 47 0 == fld (m.entry true (fineKey s n l)) 47 0

end Sys2Proof.Machine
end

