-- ==== Sys2Proof/Machine/Flash.lean ====
section
/-! DEFINITION. Landing an image, and the flash channels: die queues, power tokens, operations of the dies, erase suspension, failures, and
the FCH registers (R316 to R317, R345, R354 to R389). -/

namespace Sys2Proof.Machine

/-- Address of an FCH register. -/
def fchReg (off : Nat) : Nat := 0x200800000 + off
/-- Channel of a die (R19). -/
def chanOf (d : Nat) : Nat := d / 16
/-- VCCQ_OUT group of a die (R359). -/
def groupOfDie (d : Nat) : Nat := d / 384
/-- VCCQ_OUT group q. -/
def Mach.vccq (m : Mach) (q : Nat) : Vccq := tget Vccq.reset m.fch.vccq q
def Mach.setVccq (m : Mach) (q : Nat) (v : Vccq) : Mach := { m with fch := { m.fch with vccq := tset m.fch.vccq q v } }

/-! ## Landing (R315 to R317) -/

/-- Give a grain's image its LSN and put it into the open landing set of a quadrant; its pages that fill are enqueued (R318 step 3).
None while no landing set can take it. -/
def Mach.land (m : Mach) (g : WGrain) : Option (WGrain × Mach) :=
  let (quad, m0) := m.draw 4
  let lsn := m0.map.lsn
  let (img, raw) := if g.fine then (g.content, true) else formImage g.slice g.ns g.content
  let enc := m0.mediaXts true g.slice g.ns (if g.fine then g.grain else 256 * g.grain) img
  let bytes := if g.fine then enc
    else landHeader raw g.ns g.slice g.warm g.grain g.boot g.asn img.length lsn ++ enc
  match m0.place true g.fine false false quad 0 (some g.slice) lsn bytes with
  | none => none
  | some (n, stripe, pos, off, m1) =>
    let m2 : Mach := { m1 with map := { m1.map with lsn := lsn + 1 } }
    let m3 := if g.fine then m2.putTag n stripe pos off (slotTag g.slice g.ns g.gen g.boot g.grain g.asn lsn) else m2
    some ({ g with kind := if raw && !g.fine then .raw else .packed, ilen := img.length, lsn := lsn, set := n, stripe := stripe, pos := pos,
                   off := off, issued := true }, m3)

/-- Stripes of its set that a grain's bytes occupy. -/
def Mach.stripesOf (m : Mach) (g : WGrain) : List Nat :=
  match m.mset? g.set with
  | none => []
  | some s => (s.span g.stripe g.pos g.off (if g.fine then 4096 else g.ilen + 64)).map (·.1)

/-- Has every stripe that holds a grain's image closed (R318 step 4)? -/
def Mach.allClosed (m : Mach) (g : WGrain) : Bool :=
  match m.mset? g.set with
  | none => false
  | some s => (m.stripesOf g).all fun k => m.stripeClosed s k

/-- Replace a grain of the work list. -/
def Mach.putGrain (m : Mach) (i : Nat) (g : WGrain) : Mach := { m with map := { m.map with work := m.map.work.set i g } }

/-- The images in a stripe that can no longer close are landed again behind it, each with a new LSN (R345). -/
def Mach.reland (m : Mach) (n stripe : Nat) : Mach :=
  match m.mset? n with
  | none => m
  | some s =>
    let m1 := if s.stripe = stripe then m.setMset n { s with stripe := stripe + 1, pos := 0, off := 0 } else m
    (List.range m1.map.work.length).foldl (fun m i =>
      match m.map.work[i]? with
      | none => m
      | some g =>
        if g.set == n && g.issued && !g.landed && g.kind != .zero && (m.stripesOf g).contains stripe then
          match m.land g with
          | some (g1, m1) => m1.putGrain i g1
          | none => m.putGrain i { g with issued := false }
        else m) m1

/-! ## Tokens (R74, R370, R371) -/

/-- A pool decrease claims free tokens (R74). -/
def Mach.claimDebt (m : Mach) : Mach :=
  let n := Nat.min m.fch.debt (m.ledger 9).free
  if n = 0 then m
  else
    let m1 := m.ledMod 9 fun l => { l with free := l.free - n, total := l.total - n }
    { m1 with fch := { m1.fch with debt := m1.fch.debt - n } }

/-- A slice's token count changes. -/
def Mach.slTok (m : Mach) (o : Option Nat) (f : Nat → Nat) : Mach :=
  match o with
  | none => m
  | some s => { m with fch := { m.fch with sltok := tmod 0 f m.fch.sltok s } }

/-- Tokens return at a status read. -/
def Mach.tokensBack (m : Mach) (n : Nat) (o : Option Nat) : Mach :=
  if n = 0 then m else ((m.give 9 n).slTok o (· - n)).claimDebt

/-- Token cap of a slice (R371). -/
def Mach.tokCap (m : Mach) (s : Nat) : Nat := Nat.max 1 ((m.ledger 9).total * (m.slice s).desc.toksh / 1024)

/-- Tokens per plane (R370). -/
def NandKind.cost : NandKind → Nat
  | .read => 1 | .slcProgram => 2 | .denseProgram => 4 | .erase => 3

/-! ## Scheduling (R367 to R369) -/

/-- Is it a program? -/
def NandKind.program : NandKind → Bool
  | .slcProgram | .denseProgram => true
  | _ => false

/-- Can operation op, behind `ahead` in its die queue, issue now (R367, R368, R371, R373, R588, R598)? -/
def Mach.eligible (m : Mach) (d : Nat) (ahead : List DieOp) (op : DieOp) : Bool :=
  let free := op.kind == .read || !(m.inhibited || m.pwr.stop)
  let order := !op.kind.program || !(ahead.any fun x => x.block == op.block && (x.kind.program || x.kind == .erase))
  let cap := match op.slice with
    | some s => decide (tget 0 m.fch.sltok s < m.tokCap s)
    | none => true
  let past := (m.die d).susp.isNone || (op.kind == .read && decide (op.cls ≤ 1) && decide ((m.die d).past < m.fch.maxReads))
  free && order && cap && past

/-- Eligible operations of a die's queue with their places, oldest first. -/
def Mach.choices (m : Mach) (d : Nat) : List (Nat × DieOp) :=
  let q := (m.die d).queue.take 64
  (List.range q.length).filterMap fun i =>
    match q[i]? with
    | some op => if m.eligible d (q.take i) op then some (i, op) else none
    | none => none

/-- The operation that the scheduler chooses: the oldest that has aged, else the oldest of the lowest class (R367). -/
def Mach.nandChoice (m : Mach) (d : Nat) : Option (Nat × DieOp) :=
  let l := m.choices d
  match l.find? fun x => decide (m.fch.age ≤ m.tb - x.2.at_) with
  | some x => some x
  | none => (List.range 5).findSome? fun c => l.find? fun x => x.2.cls == c

/-- Operations queued back to back behind the chosen one that combine with it: same kind, page and slice, distinct planes (R368). -/
def combined (planes : Nat) : List DieOp → List DieOp → List DieOp
  | acc, [] => acc
  | acc, op :: rest =>
    match acc with
    | [] => []
    | x :: _ =>
      if op.kind == x.kind && op.kind != .erase && op.page == x.page && op.slice == x.slice && op.cls == x.cls &&
         decide (acc.length < planes) && !(acc.any fun y => y.block % planes == op.block % planes)
      then combined planes (acc ++ [op]) rest else acc

/-- Can a die take an operation: in service, its channel active, its group supplied, nothing in it (R359, R369, R597)? -/
def Mach.dieReady (m : Mach) (d : Nat) : Bool :=
  let v := m.die d
  let g := m.vccq (groupOfDie d)
  m.dieUp d && (m.chan (chanOf d)).state == .active && g.en && !g.low && !g.off && v.cur.isNone && v.resetAt.isNone && !v.tokBad

/-- The scheduler issues an operation to a die once it can take one and the pool grants its tokens (R367, R370). A die whose token count
disagrees issues nothing until a status read (R597). -/
def Mach.nandIssue (m : Mach) (d : Nat) : Mach :=
  if m.unsound (.tokens d) then (m.meet (.tokens d)).setDie d { m.die d with tokBad := true }
  else if !m.dieReady d then m
  else match m.nandChoice d with
    | none => m
    | some (i, op) =>
      let v := m.die d
      let ops := if v.susp.isSome then [op] else combined (Nat.max 1 v.planes) [op] ((v.queue.take 64).drop (i + 1))
      let total := (m.ledger 9).total
      let limit := match op.slice with
        | some s => Nat.min total (m.tokCap s)
        | none => total
      let n := Nat.min (op.kind.cost * ops.length) limit
      if (m.ledger 9).free < n then m
      else
        let rest := v.queue.take i ++ v.queue.drop (i + ops.length)
        let c : InDie := { op := op, more := ops.drop 1, from_ := m.tb, tokens := n, again := false }
        let m1 := m.setDie d { v with queue := rest, cur := some c, suspN := if op.kind = .erase then 0 else v.suspN,
                                      past := if v.susp.isSome then v.past + 1 else v.past }
        (m1.take 9 n).slTok op.slice (· + n)

/-! ## Ends of operations -/

/-- Is a program or an erase in progress in a die? A suspended erase is one. -/
def Die.writing (v : Die) : Bool :=
  (match v.cur with | some c => c.op.kind != .read | none => false) || v.susp.isSome

/-- WP_n follows the supply (R358): low below the inhibit threshold as soon as no die of the channel is being written, high again after. -/
def Mach.wpFollow (m : Mach) : Mach :=
  let busy := fun (c : Nat) => m.fch.dies.any fun d => chanOf d.1 == c && d.2.writing
  let put := fun (e : Nat × Chan) =>
    if e.2.state == .active then (e.1, { e.2 with wpLow := m.inhibited && (e.2.wpLow || !busy e.1) }) else e
  { m with fch := { m.fch with chans := m.fch.chans.map put } }

/-- A page arrives for a command, or its failure. -/
def Mach.gotPage (m : Mach) (tag k : Nat) (p : Option PageData) : Mach :=
  { m with fch := { m.fch with got := m.fch.got ++ [{ tag := tag, page := k, data := p }] } }

/-- The block of a set has been erased, or retired: when the last one is done the set is FREE, or RETIRED where a block failed (R345). -/
def Mach.blockDone (m : Mach) (n d b : Nat) : Mach :=
  match m.mset? n with
  | none => m
  | some s =>
    let left := s.toErase.filter (· != (d, b))
    let m1 := m.setMset n { s with toErase := left }
    if left.isEmpty && s.state == .erasing then
      (m1.setState n (if s.members.any fun x => m1.defective x.1 x.2 then .retired else .free)).spareCheck
    else m1

/-- A channel's counts change. -/
def Mach.modChan (m : Mach) (c : Nat) (f : Chan → Chan) : Mach := m.setChan c (f (m.chan c))

/-- A read ends; `step` is the decode step of R379 at which it succeeded, 5 a failure. -/
def Mach.readEnd (m : Mach) (d : Nat) (op : DieOp) (step : Nat) : Mach :=
  let k := pageKey d op.block op.page
  let c := chanOf d
  let m1 := match step with
    | 2 => m.modChan c fun v => { v with retry := up16 v.retry }
    | 3 => m.modChan c fun v => { v with calib := up16 v.calib }
    | 4 => m.modChan c fun v => { v with soft := up16 v.soft }
    | 5 => Mach.raise { (m.modChan c fun v => { v with dfail := up16 v.dfail }) with
        fch := { (m.modChan c fun v => { v with dfail := up16 v.dfail }).fch with pages := tdel m.fch.pages k } } (129 + 4 * c)
    | _ => m
  let m2 := if 2 ≤ step ∧ step ≤ 4 then m1.setDie d { m1.die d with tracked := tset (m1.die d).tracked op.block step } else m1
  match op.why with
  | .cmd t => m2.gotPage t k (m2.page? k)
  | _ => m2

/-- A program ends (R345, R384). -/
def Mach.programEnd (m : Mach) (d : Nat) (op : DieOp) (fail : Bool) : Mach :=
  let k := pageKey d op.block op.page
  let c := chanOf d
  if fail then
    let m1 := ({ m with fch := { m.fch with pages := tdel m.fch.pages k } } : Mach)
    let m2 := (m1.modChan c fun v => { v with pfail := up16 v.pfail }).raise (128 + 4 * c)
    match m2.setOfKey k with
    | none => m2
    | some (n, s, stripe, _) => (m2.setMset n { s with victim := true }).reland n stripe
  else
    let m1 : Mach := match tget? m.fch.pages k with
      | none => m
      | some p => { m with fch := { m.fch with pages := tset m.fch.pages k { p with verified := true } } }
    match m1.setOfKey k with
    | none => m1
    | some (n, _, stripe, _) => m1.parity n stripe

/-- An erase ends (R345, R379, R384). -/
def Mach.eraseEnd (m : Mach) (d : Nat) (op : DieOp) (fail : Bool) : Mach :=
  let c := chanOf d
  match op.why with
  | .erase n =>
    if fail then
      (((m.modChan c fun v => { v with efail := up16 v.efail }).raise (128 + 4 * c)).addDefect d op.block false 3).blockDone n d op.block
    else
      let lo := pageKey d op.block 0
      let m1 : Mach := { m with fch := { m.fch with pages := tdelRange m.fch.pages lo (lo + 4096) } }
      (m1.setDie d { m1.die d with tracked := tdel (m1.die d).tracked op.block }).blockDone n d op.block
  | _ => m

/-- A status read finds a die ready: its operation ends and its tokens return; after a Reset LUN the operation issues once more
(R72, R357, R385). -/
def Mach.nandStatus (m : Mach) (d : Nat) (fail : Bool) (step : Nat) : Mach :=
  let v := m.die d
  match v.cur with
  | none => m.setDie d { v with tokBad := false }
  | some c =>
    let m1 := (m.setDie d { v with cur := none, resetAt := none, tokBad := false }).tokensBack c.tokens c.op.slice
    if v.resetAt.isSome then
      let n := Nat.min c.tokens (m1.ledger 9).free
      let m2 := m1.setDie d { m1.die d with cur := some { c with from_ := m1.tb, again := true, tokens := n } }
      (m2.take 9 n).slTok c.op.slice (· + n)
    else
      Mach.wpFollow ((c.op :: c.more).foldl (fun m op =>
        match op.kind with
        | .read => m.readEnd d op step
        | .erase => m.eraseEnd d op fail
        | _ => m.programEnd d op fail) m1)

/-! ## Failures (R385, R386) -/

/-- Everything that waits for a die is given up: its tokens return, its reads fail for their commands, and its landing pages are landed
again elsewhere. -/
def Mach.emptyDie (m : Mach) (d : Nat) : Mach :=
  let v := m.die d
  let inDie := (match v.cur with | some c => c.op :: c.more | none => []) ++ (match v.susp with | some c => c.op :: c.more | none => [])
  let ops := inDie ++ v.queue
  let m1 := match v.cur with | some c => m.tokensBack c.tokens c.op.slice | none => m
  let m2 := match v.susp with | some c => m1.tokensBack c.tokens c.op.slice | none => m1
  let m3 := Mach.wpFollow (m2.setDie d { m2.die d with queue := [], cur := none, susp := none, resetAt := none })
  ops.foldl (fun m op =>
    let k := pageKey d op.block op.page
    match op.why with
    | .cmd t => m.gotPage t k none
    | .land _ =>
      (match m.setOfKey k with
       | some (n, _, stripe, _) => Mach.reland { m with fch := { m.fch with pages := tdel m.fch.pages k } } n stripe
       | none => m)
    | _ => m) m3

/-- A die fails (R329, R386): it is entered whole in the grown-defect table, its work is given up, and every set with a block on it is
closed and queued for the rebuild. -/
def Mach.failDie (m : Mach) (d : Nat) : Mach :=
  let m1 := (m.setDie d { m.die d with state := .failed }).emptyDie d
  let hit := fun (e : Nat × MSet) =>
    if e.2.members.any (fun b => b.1 == d) then
      (e.1, { e.2 with victim := true, state := if e.2.state = .open_ then .closed else if e.2.state = .free then .retired else e.2.state })
    else e
  let m2 : Mach := { m1 with map := { m1.map with sets := m1.map.sets.map hit } }
  ((m2.addDefect d 0 true 4).raise (130 + 4 * chanOf d)).raise 1015

/-- A die becomes unavailable until the next mount (R386). -/
def Mach.awayDie (m : Mach) (d : Nat) : Mach :=
  if m.dieUp d then (m.setDie d { m.die d with state := .unavailable }).emptyDie d else m

/-- Busy limit of an operation (R360, R385). -/
def Die.busy (v : Die) : NandKind → Nat
  | .read => v.busyR
  | .erase => v.busyE
  | _ => v.busyP

/-- An operation's busy limit has passed: Reset LUN, or the die fails the second time (R385). -/
def Mach.nandTimeout (m : Mach) (d : Nat) : Mach :=
  let v := m.die d
  match v.cur with
  | none => m
  | some c =>
    if v.resetAt.isSome || decide (m.tb < c.from_ + v.busy c.op.kind) then m
    else
      let m1 := (m.modChan (chanOf d) fun x => { x with timeout := up16 x.timeout }).raise (130 + 4 * chanOf d)
      if c.again then m1.failDie d else m1.setDie d { v with resetAt := some m1.tb }

/-- A die is not ready 100 ms after Reset LUN: it fails (R385). -/
def Mach.resetTimeout (m : Mach) (d : Nat) : Mach :=
  match (m.die d).resetAt with
  | some t => if t + 10000000 ≤ m.tb then m.failDie d else m
  | none => m

/-! ## Erase suspension (R373 to R376) -/

/-- Does a read of class 0 or 1 wait at a die? -/
def Die.readWaits (v : Die) : Bool := v.queue.any fun op => op.kind == .read && decide (op.cls ≤ 1)

/-- The scheduler suspends an erase; a die found ready ignores it, and the suspension is not counted (R373, R375). -/
def Mach.suspendErase (m : Mach) (d : Nat) (busy : Bool) : Mach :=
  let v := m.die d
  match v.cur with
  | none => m
  | some c =>
    if c.op.kind == .erase && v.canSusp && v.susp.isNone && v.resetAt.isNone && v.readWaits && busy && decide (v.suspN < m.fch.maxSusp) &&
       decide (c.from_ + m.fch.minRun ≤ m.tb)
    then m.setDie d { v with cur := none, susp := some c, suspN := v.suspN + 1, past := 0 }
    else m

/-- The scheduler resumes a suspended erase when enough reads have passed it or none waits (R373, R376). -/
def Mach.resumeErase (m : Mach) (d : Nat) : Mach :=
  let v := m.die d
  match v.susp with
  | none => m
  | some c =>
    if v.cur.isNone && (decide (m.fch.maxReads ≤ v.past) || !v.readWaits) && !(m.inhibited || m.pwr.stop)
    then m.setDie d { v with susp := none, cur := some { c with from_ := m.tb } }
    else m

/-! ## VCCQ_OUT and the pool (R359, R74, R389) -/

/-- LOW held throughout 100 ms turns a group off (R359). -/
def Mach.vccqExpire (m : Mach) (q : Nat) : Mach :=
  let v := m.vccq q
  if v.low && !v.off && decide (v.lowAt + 10000000 ≤ m.tb) then
    ((List.range 384).map (· + 384 * q)).foldl Mach.awayDie (m.setVccq q { v with off := true, en := false })
  else m

/-- A write to FCH_PTOK_POOL: rings 0 and 1 (R74, R370). -/
def Mach.poolWrite (m : Mach) (w : Who) (v : W64) : Mach × RegOut :=
  let n := fld v 15 0
  m.writeReg w (fchReg 0x80000) v (rsvBits [(15, 0)]) w.low (n != 0) fun m =>
    let old := m.fch.pool
    let m1 : Mach := { m with fch := { m.fch with pool := n, debt := m.fch.debt + (old - n) } }
    let m2 := if old < n then m1.ledMod 9 fun l => { l with free := l.free + (n - old), total := l.total + (n - old) } else m1
    m2.claimDebt

/-! ## Registers (R388, R389) -/

/-- Dies of channel c for which a test holds, by position. -/
def Mach.diesMask (m : Mach) (c : Nat) (p : Die → Bool) : Nat :=
  (((List.range 16).filter fun k => p (m.die (16 * c + k))).map fun k => 2 ^ k).sum

/-- Code of a channel state. -/
def ChanState.code : ChanState → Nat
  | .off => 0 | .training => 1 | .active => 2 | .failed => 3
/-- Code of a die state. -/
def DieState.code : DieState → Nat
  | .absent => 0 | .inService => 1 | .excluded => 2 | .failed => 3 | .unavailable => 4

/-- Tokens that a die's operations hold. -/
def Die.tokens (v : Die) : Nat :=
  (match v.cur with | some c => c.tokens | none => 0) + (match v.susp with | some c => c.tokens | none => 0)

/-- A read of an FCH register. -/
def Mach.fchRead (m : Mach) (w : Who) (off : Nat) : Mach × RegOut :=
  if !w.low then
    (m, .value (if off = 0x81000 + 8 * w.slice then at_ 16 (m.tokCap w.slice) ||| at_ 0 (tget 0 m.fch.sltok w.slice) else 0))
  else if off < 0x60000 then
    let c := off / 0x1000
    let v := m.chan c
    match off % 0x1000 with
    | 0x000 => (m, .value (at_ 48 (m.diesMask c fun d => d.state != .absent) |||
        at_ 32 (m.diesMask c fun d => match d.state with | .excluded | .failed | .unavailable => true | _ => false) ||| at_ 8 v.rate |||
        at_ 0 v.state.code))
    | 0x008 => (m, .value (w64 v.rateMax))
    | 0x010 => (m.setChan c { v with pfail := 0, efail := 0, timeout := 0, train := 0 },
        .value (at_ 48 v.pfail ||| at_ 32 v.efail ||| at_ 16 v.timeout ||| at_ 0 v.train))
    | 0x018 => (m.setChan c { v with retry := 0, calib := 0, soft := 0, dfail := 0 },
        .value (at_ 48 v.retry ||| at_ 32 v.calib ||| at_ 16 v.soft ||| at_ 0 v.dfail))
    | o =>
      if 0x100 ≤ o ∧ o < 0x180 then
        let d := m.die (16 * c + (o - 0x100) / 8)
        (m, .value (at_ 61 d.state.code ||| at_ 48 d.profile ||| at_ 46 d.kind ||| at_ 32 d.suspN ||| at_ 16 (Nat.min 64 d.queue.length) |||
          at_ 0 d.tokens))
      else (m, .value 0)
  else if off = 0x80000 then (m, .value (w64 m.fch.pool))
  else if off = 0x80008 then (m, .value (at_ 32 m.fch.minRun ||| at_ 8 m.fch.maxReads ||| at_ 0 m.fch.maxSusp))
  else if off = 0x80010 then (m, .value (w64 m.fch.age))
  else if 0x80100 ≤ off ∧ off < 0x80120 then
    let v := m.vccq ((off - 0x80100) / 8)
    (m, .value (flagAt 63 v.en ||| flagAt 62 v.overcur ||| flagAt 61 v.low ||| flagAt 60 v.off ||| at_ 0 v.ma))
  else if 0x81000 ≤ off ∧ off < 0x81800 then
    let s := (off - 0x81000) / 8
    (m, .value (at_ 16 (if (m.slice s).state = .live then m.tokCap s else 0) ||| at_ 0 (tget 0 m.fch.sltok s)))
  else (m, .value 0)

/-- Is an FCH offset one that the chapter names? -/
def fchNamed (off : Nat) : Bool :=
  if off < 0x60000 then let o := off % 0x1000; decide (o ≤ 0x18) || (decide (0x100 ≤ o) && decide (o < 0x180))
  else decide (off ≤ 0x80010 ∧ 0x80000 ≤ off) || decide (0x80100 ≤ off ∧ off < 0x80120) || decide (0x81000 ≤ off ∧ off < 0x81800)

/-- A write of an FCH register. -/
def Mach.fchWrite (m : Mach) (w : Who) (off : Nat) (v : W64) : Mach × RegOut :=
  let a := fchReg off
  if off < 0x60000 then
    let c := off / 0x1000
    match off % 0x1000 with
    | 0x000 => m.deadWrite w a v (rsvBits [(63, 32), (11, 8), (1, 0)])
    | 0x008 => m.writeReg w a v (rsvBits [(3, 0)]) w.zero (decide (1 ≤ fld v 3 0 ∧ fld v 3 0 ≤ 8)) fun m =>
        m.modChan c fun x => { x with rateMax := fld v 3 0 }
    | 0x010 => m.deadWrite w a v 0
    | 0x018 => m.deadWrite w a v 0
    | o => m.deadWrite w a v (if fchNamed o then rsvBits [(63, 61), (55, 46), (39, 32), (22, 0)] else BitVec.allOnes 64)
  else if off = 0x80000 then m.poolWrite w v
  else if off = 0x80008 then
    m.writeReg w a v (rsvBits [(63, 32), (15, 0)]) w.zero
      (decide (10000 ≤ fld v 63 32 ∧ fld v 63 32 ≤ 10000000) && decide (1 ≤ fld v 15 8 ∧ fld v 15 8 ≤ 64)) fun m =>
        { m with fch := { m.fch with minRun := fld v 63 32, maxReads := fld v 15 8, maxSusp := fld v 7 0 } }
  else if off = 0x80010 then
    m.writeReg w a v (rsvBits [(31, 0)]) w.zero (decide (10000 ≤ fld v 31 0 ∧ fld v 31 0 ≤ 100000000)) fun m =>
      { m with fch := { m.fch with age := fld v 31 0 } }
  else if 0x80100 ≤ off ∧ off < 0x80120 then
    let q := (off - 0x80100) / 8
    m.writeReg w a v (rsvBits [(63, 60), (15, 0)]) w.zero true fun m =>
      if bit v 62 then m.setVccq q { m.vccq q with overcur := false } else m
  else m.deadWrite w a v (if 0x81000 ≤ off ∧ off < 0x81800 then rsvBits [(31, 0)] else BitVec.allOnes 64)

/-! ## Commands -/

/-- NAND_OP_ISSUE (R367). -/
def execNandOpIssue (d : Fin 1536) (s : State) : Host.Outcome State Fault Refusal := s.act fun m => m.fabric fun m => m.nandIssue d

/-- NAND_STATUS_READ (R357). -/
def execNandStatusRead (d : Fin 1536) (fail : Bool) (decode : Fin 6) (s : State) : Host.Outcome State Fault Refusal :=
  s.act fun m => m.fabric fun m => m.nandStatus d fail decode

/-- NAND_OP_TIMEOUT (R385). -/
def execNandOpTimeout (d : Fin 1536) (s : State) : Host.Outcome State Fault Refusal := s.act fun m => m.fabric fun m => m.nandTimeout d

/-- RESET_LUN_TIMEOUT (R385). -/
def execResetLunTimeout (d : Fin 1536) (s : State) : Host.Outcome State Fault Refusal := s.act fun m => m.fabric fun m => m.resetTimeout d

/-- ERASE_SUSPEND (R373). -/
def execEraseSuspend (d : Fin 1536) (busy : Bool) (s : State) : Host.Outcome State Fault Refusal :=
  s.act fun m => m.fabric fun m => m.suspendErase d busy

/-- ERASE_RESUME (R373). -/
def execEraseResume (d : Fin 1536) (s : State) : Host.Outcome State Fault Refusal := s.act fun m => m.fabric fun m => m.resumeErase d

/-- VCCQ_OVERCURRENT (R359). -/
def execVccqOvercurrent (q : Fin 4) (ma : BitVec 16) (s : State) : Host.Outcome State Fault Refusal :=
  s.act fun m => m.fabric fun m =>
    let v := m.vccq q
    if v.en && decide (1500 < ma.toNat) then (m.setVccq q { v with overcur := true, ma := Nat.min 2000 ma.toNat }).raise (20 + q) else m

/-- VCCQ_LOW (R359). -/
def execVccqLow (q : Fin 4) (ma : BitVec 16) (s : State) : Host.Outcome State Fault Refusal :=
  s.act fun m => m.fabric fun m =>
    let v := m.vccq q
    if v.en then m.setVccq q { v with low := true, ma := ma.toNat, lowAt := if v.low then v.lowAt else m.tb } else m

/-- VCCQ_LOW_TIMEOUT (R359). -/
def execVccqLowTimeout (q : Fin 4) (s : State) : Host.Outcome State Fault Refusal := s.act fun m => m.fabric fun m => m.vccqExpire q

/-- VCCQ_OUT_RECOVER (R359). -/
def execVccqOutRecover (q : Fin 4) (ma : BitVec 16) (s : State) : Host.Outcome State Fault Refusal :=
  s.act fun m => m.fabric fun m =>
    let v := m.vccq q
    if v.off then m else m.setVccq q { v with low := false, ma := ma.toNat }

/-- FCH_PTOK_POOL_WRITE (R74). -/
def execFchPtokPoolWrite (w : Who) (v : W64) (s : State) : Host.Outcome State Fault Refusal := s.access fun m => m.poolWrite w v

end Sys2Proof.Machine
end

