-- ==== Sys2Proof/Machine/Grains.lean ====
section
/-! DEFINITION. The commands that write and read the media: WRITE, TRIM, READ and FLUSH, the landing of grains and their map updates
(R265, R271 to R276, R314, R317 to R322, R338, R342). -/

namespace Sys2Proof.Machine

/-! ## Map entries that commands meet (R312, R597) -/

/-- Is the entry of a key one that raises the map integrity alarm: its complement differs, or its class rules are broken? -/
def Mach.badEntry (m : Mach) (fine : Bool) (k : Nat) : Bool :=
  if fine then m.map.badFine.contains k else m.map.bad.contains k || !entryOk (m.entry false k)

/-- Keys of the grains (or fine blocks) that a command touches, ascending. -/
def Mach.cmdKeys (m : Mach) (c : Cmd) : List Nat :=
  let s := c.owner.getD 0
  let f := m.isFine s c.ent.nsid
  let g := c.grains f
  (List.range g.2).map fun i => mapKey f s c.ent.nsid (g.1 + i)

/-- A command whose map entry fails its check completes with INTEGRITY-ALARM, and the map alarm is raised (R312, R598). -/
def Mach.entryAlarm (m : Mach) (tag : Nat) (c : Cmd) : Option Mach :=
  let f := m.isFine (c.owner.getD 0) c.ent.nsid
  ((m.cmdKeys c).find? fun k => m.badEntry f k).map fun k => (m.alarm 0 k).decideOpen tag 0x0304

/-! ## WRITE and TRIM (R314, R318, R320, R321) -/

/-- Grain (or fine block) i of a command, its first block that the command covers, and how many it covers. -/
def Cmd.part (c : Cmd) (fine : Bool) (i : Nat) : Nat × Nat × Nat :=
  let u := unitBlocks fine
  let x := c.ent.lba / u + i
  let lo := Nat.max c.ent.lba (x * u)
  (x, lo, Nat.min (c.ent.lba + c.ent.nblk) ((x + 1) * u) - lo)

/-- The data of n buffers, one block each; none where a stored word is uncorrectable (R527). -/
def Mach.bufData (m : Mach) : List Nat → Mach × Option (List Byte)
  | [] => (m, some [])
  | k :: t =>
    match m.readBytes (bufAddr k) 4096 with
    | (m1, .ok b) =>
      (match Mach.bufData m1 t with
       | (m2, some l) => (m2, some (b ++ l))
       | r => r)
    | (m1, _) => (m1, none)

/-- Does an earlier write that touches grain x still have to form it (R314)? -/
def Mach.grainPending (m : Mach) (asn s n x : Nat) : Bool :=
  let fine := m.isFine s n
  m.hq.cmds.any fun e =>
    let c := e.2
    let g := c.grains fine
    writes c.ent.opc && c.owner == some s && c.ent.nsid == n && c.stopReq.isNone && asnBefore c.asn asn && decide (g.1 ≤ x) &&
      decide (x < g.1 + g.2) && decide (c.count ≤ x - g.1)

/-- Generation that a fine WRITE gives its block (R339): one more than the latest before it. -/
def Mach.genOf (m : Mach) (asn s n x : Nat) : Nat :=
  match m.formed asn s n x with
  | some g => g.gen
  | none => fineGen (m.entry true (fineKey s n x))

/-- Move buffers of a write from HOST-IN into the write buffer: class MEDIA (R272). -/
def Mach.toWriteBuffer (m : Mach) (l : List Nat) : Mach :=
  l.foldl (fun m k => let b := m.buf k; ((m.classDown b.cls).setBuf k { b with cls := 3 }).classUp 3) m

/-- The map update of a grain (R318 step 5, R320): its entry changes, its record is appended, and its write buffer is freed. -/
def Mach.mapUpdate (m : Mach) (i : Nat) (g : WGrain) : Mach :=
  let k := mapKey g.fine g.slice g.ns g.grain
  let loc := match (m.mset? g.set).bind fun s => s.key g.stripe g.pos with
    | some p => ({ die := keyDie p, block := keyBlock p, page := p % 4096, off := g.off } : Place)
    | none => { die := 0, block := 0, page := 0, off := 0 }
  let e := match g.kind with
    | .zero => if g.fine then fineZero g.gen else at_ 61 3
    | _ => if g.fine then fineWord g.gen loc else entryWord 5 loc 0
  let typ := if g.kind = .zero then 3 else if g.fine then 2 else 1
  let m1 := (m.setEntry g.fine k e).jrec typ g.ns g.slice (w64 g.grain) e (if g.kind = .zero then 1 else w64 g.lsn)
  let m2 := (m1.putGrain i { g with mapped := true, jsn := m1.map.jsn, bufs := [] }).releaseAll g.bufs
  (m2.returnWrite g.asn).settle

/-- May the map update of a grain be made now (R271, R318)? -/
def Mach.mayMap (m : Mach) (g : WGrain) : Bool :=
  let u := unitBlocks g.fine
  (g.landed || g.kind == .zero) && !g.mapped && !m.pwr.stop &&
    !(m.map.work.any fun h => h.slice == g.slice && h.ns == g.ns && h.grain == g.grain && !h.mapped && asnBefore h.asn g.asn) &&
    !(m.hq.ovls.any fun o => o.kind == .guard && o.slice == g.slice && o.nsid == g.ns && asnBefore o.asn g.asn &&
        decide (o.lo < (g.grain + 1) * u) && decide (g.grain * u < o.hi))

/-- The map update of a grain, if it may be made. -/
def Mach.tryMap (m : Mach) (asn x : Nat) : Mach :=
  match m.map.work.findIdx? fun g => g.asn == asn && g.grain == x && !g.mapped && (g.landed || g.kind == .zero) with
  | none => m
  | some i =>
    match m.map.work[i]? with
    | some g => if m.mayMap g then m.mapUpdate i g else m
    | none => m

/-- Can reclaim or fold free a set: one is being erased or emptied, a landing set waits for fold, or dense sets hold less live data than
they have room for (R347)? -/
def Mach.reclaimable (m : Mach) : Bool :=
  let dense := m.map.sets.filter fun e => e.2.state == .closed && !e.2.landing
  let room := dense.map fun e => m.setPages e.2 * e.2.width * 256
  let use := fun (fine : Bool) (t : Tab W64) => (t.map fun e =>
    match m.extent fine e.2 with
    | some x => if dense.any fun d => d.1 == x.set then m.usageOf fine e.2 else 0
    | none => 0).sum
  (m.map.sets.any fun e => e.2.state == .erasing || e.2.victim || (e.2.landing && e.2.state == .closed)) ||
    (!room.isEmpty && decide (use false m.map.coarse + use true m.map.fine + room.foldl Nat.max 0 ≤ room.sum))

/-- Forming one grain of a command. -/
inductive Formed where
  /-- it waits -/
  | wait
  /-- handled -/
  | next (m : Mach)
  /-- no space is left and reclaim can free none (R347) -/
  | full

/-- The grain has failed with a status; the others go on (R321, R417, R432, R527). -/
def Mach.skipGrain (m : Mach) (tag : Nat) (c : Cmd) (n st rs : Nat) : Mach :=
  let m1 := m.setCmd tag { c with started := true, phase := .running, count := c.count + 1, bufs := c.bufs.drop n,
                                  verdict := some (c.verdict.getD (st, rs)) }
  m1.releaseAll (c.bufs.take n)

/-- The grain has failed with a status for which no rule states a RESULT. -/
def Mach.skipOpen (m : Mach) (tag : Nat) (c : Cmd) (n st : Nat) : Mach := let r := m.openRs; r.2.skipGrain tag c n st r.1

/-- What the units on the write path find in a grain's image: the status that ends its command, 0 where they find nothing. A ZERO grain
makes no image, and a fine block is not compressed (R314, R339, R417, R432). -/
def Mach.imagePass (m : Mach) (s n : Nat) (zero decrypts : Bool) (fault : Option UnitFault) : Mach × Nat :=
  match fault with
  | some (.groat e) => if !zero && !m.isFine s n then (m.unitFault (.groat e), 0x0401) else if zero && !decrypts then (m, 0) else m.mediaPass s n none
  | some (.cipher q) => if zero && !decrypts then (m, 0) else m.mediaPass s n (some q)
  | none => if zero && !decrypts then (m, 0) else m.mediaPass s n none

/-- Form grain i of a command: its content, its image, its place in a landing set (R314, R318, R320). -/
def Mach.formGrain (m : Mach) (tag : Nat) (c : Cmd) (fault : Option (Nat × UnitFault)) : Formed :=
  let s := c.owner.getD 0
  let n := c.ent.nsid
  let fine := m.isFine s n
  let (x, lo, cnt) := c.part fine c.count
  let k := mapKey fine s n x
  let whole := cnt == unitBlocks fine
  let w := c.ent.opc == 0x03
  let nb := if w then cnt else 0
  if m.grainPending c.asn s n x || !m.loaded fine k then .wait
  else
    let (m1, own) := if w then m.bufData (c.bufs.take nb) else (m, some (if whole then [] else zeros (4096 * cnt)))
    let old := if whole then some [] else m1.contentAt m1.pageData c.asn s n x
    match own, old with
    | none, _ => .next (m1.skipOpen tag c nb 0x0300)
    | _, none => .next ((m1.lostGrain s n x).skipGrain tag c nb 0x0300 (x * unitBlocks fine))
    | some d, some o =>
      let at_ := 4096 * (lo - x * unitBlocks fine)
      let content := o.take at_ ++ d ++ o.drop (at_ + 4096 * cnt)
      let zero := content.all (· == 0)
      let g : WGrain := { tag := tag, asn := c.asn, boot := m.map.boot, slice := s, ns := n, grain := x, fine := fine,
                          kind := if zero then .zero else .packed, warm := c.ent.warm,
                          gen := (m1.genOf c.asn s n x + (if w then 1 else 0)) % 256, content := if zero then [] else content, ilen := 0,
                          lsn := 0, set := 0, stripe := 0, pos := 0, off := 0, issued := false, landed := false, mapped := false, jsn := 0,
                          bufs := c.bufs.take nb }
      let put := fun (m : Mach) (g : WGrain) =>
        let m1 := (m.setCmd tag { c with started := true, phase := .running, count := c.count + 1, bufs := c.bufs.drop nb }).toWriteBuffer
          (c.bufs.take nb)
        Mach.spareCheck { m1 with map := { m1.map with work := m1.map.work ++ [g] } }
      let f := (fault.filter fun f => f.1 == c.count).map (·.2)
      match m1.imagePass s n zero (!whole && !(m1.pagesFor c.asn s n x).isEmpty) f with
      | (m2, 0) =>
        if zero then .next ((put m2 g).tryMap c.asn x)
        else (match m2.land g with
          | some (g1, m3) => .next (put m3 g1)
          | none => if decide (m1.freeSets ≤ m1.map.reserve) && !m1.reclaimable then .full else .wait)
      | (m2, st) => .next (m2.skipOpen tag c nb st)

/-- Form the grains of a command in ascending order, as far as they can be (R274). -/
def Mach.formGrains (tag : Nat) (fault : Option (Nat × UnitFault)) : Nat → Mach → Mach
  | 0, m => m
  | f + 1, m =>
    match m.cmd? tag with
    | none => m
    | some c =>
      if c.count = m.grainCount c then m
      else match m.formGrain tag c fault with
        | .wait => m
        | .next m1 => Mach.formGrains tag fault f m1
        | .full =>
          let r := m.sealModule.openRs
          (r.2.setCmd tag { c with started := true, phase := .running, stopReq := some 0x0301, verdict := some (0x0301, r.1) }).settle

/-- WRITE and TRIM do what they can now (R276, R318, R320). -/
def Mach.writeCmd (m : Mach) (tag opc : Nat) (fault : Option (Nat × UnitFault)) : Mach :=
  match m.ready? tag opc with
  | none => m
  | some c =>
    if m.pwr.stop then m
    else match m.entryAlarm tag c with
      | some m1 => m1
      | none => (Mach.formGrains tag fault (m.grainCount c - c.count) m).settle

/-- A landed image or slot as its landing header or tag names it (R315, R341). -/
def WGrain.img (g : WGrain) : Img :=
  { slice := g.slice, ns := g.ns, grain := g.grain, fine := g.fine, raw := g.kind == .raw || g.fine, warm := g.warm, boot := g.boot,
    asn := g.asn, lsn := g.lsn, ilen := g.ilen, set := g.set, stripe := g.stripe, pos := g.pos, off := g.off, gen := g.gen }

/-- Every stripe that holds a grain's image has closed: the grain has landed (R318 step 4). -/
def Mach.landed (m : Mach) (tag x : Nat) : Mach :=
  match m.map.work.findIdx? fun g => g.tag == tag && g.grain == x && g.issued && !g.landed && g.kind != .zero with
  | none => m
  | some i =>
    match m.map.work[i]? with
    | none => m
    | some g =>
      if !m.allClosed g then m
      else
        let m1 := m.putGrain i { g with landed := true }
        Mach.settle { m1 with map := { m1.map with imgs := m1.map.imgs ++ [g.img] } }

/-- 200 µs have passed with no image queued for a partly used landing stripe (R317). -/
def Mach.stripeTimeout (m : Mach) (n : Nat) : Mach :=
  match m.mset? n with
  | none => m
  | some s =>
    if s.landing && s.state == .open_ && !(s.pos == 0 && s.off == 0) && decide (s.lastAt + 20000 ≤ m.tb) && !m.pwr.stop
    then m.fillStripe n else m

/-! ## READ (R265, R269, R271, R272, R342) -/

/-- The host's entry for block i of a fine READ (R265). -/
def Cmd.hint (c : Cmd) (i : Nat) : W64 := if c.ent.nblk ≤ 3 then c.ent.param i else w64 (leAt c.hints (8 * i) 8)

/-- Blocks of a fine READ whose host entry does not serve (R342). -/
def Mach.badHints (m : Mach) (c : Cmd) : Nat :=
  let s := c.owner.getD 0
  if m.isFine s c.ent.nsid then
    ((List.range c.ent.nblk).filter fun i => !m.hintGood s c.ent.nsid (c.ent.lba + i) (c.hint i)).length
  else 0

/-- Does an operation read page k for a command? -/
def Mach.reading (m : Mach) (tag k : Nat) : Bool :=
  let d := m.die (keyDie k)
  let hit := fun (op : DieOp) => op.why == .cmd tag && op.block == keyBlock k && op.page == k % 4096
  d.queue.any hit || d.cur.any fun c => hit c.op || c.more.any hit

/-- Ask for page k for a command: a read of class 1 enters the die's queue, or the page is out of reach (R366). -/
def Mach.fetchPage (m : Mach) (tag : Nat) (s : Nat) (k : Nat) : Mach :=
  if m.reading tag k || m.fch.got.any (fun g => g.tag == tag && g.page == k) then m
  else if m.dieUp (keyDie k) then
    m.enqueue (keyDie k) { kind := .read, cls := 1, block := keyBlock k, page := k % 4096, slice := some s, at_ := m.tb, why := .cmd tag }
  else m.gotPage tag k none

/-- A page as a command has it: read, or rebuilt from its stripe (R329). -/
def Mach.pageFor (m : Mach) (tag : Nat) (k : Nat) : Option PageData :=
  (((m.fch.got.find? fun g => g.tag == tag && g.page == k).bind (·.data))).or (m.pageData k)

/-- READ does what it can now. Data that come from the media pass a cipher pair, whose check may fail (R432). -/
def Mach.readCmd (m : Mach) (tag : Nat) (fault : Option (Fin 4)) : Mach :=
  match m.ready? tag 0x02 with
  | none => m
  | some c =>
    let s := c.owner.getD 0
    let n := c.ent.nsid
    let fine := m.isFine s n
    let g := c.grains fine
    let xs := (List.range g.2).map (· + g.1)
    if (List.range c.ent.nblk).any fun i => m.unformed c.asn s n (c.ent.lba + i) then m
    else if xs.any fun x => !m.loaded fine (mapKey fine s n x) then m
    else match m.entryAlarm tag c with
      | some m1 => m1
      | none =>
        let m1 := m.setCmd tag { c with started := true, phase := .running }
        let keys := xs.flatMap fun x => m1.pagesFor c.asn s n x
        let m2 := keys.foldl (fun m k => m.fetchPage tag s k) m1
        if !(keys.all fun k => m2.fch.got.any fun g => g.tag == tag && g.page == k) then m2
        else
          let m3 := keys.foldl Mach.noteRebuild m2
          let (m4, st) := if keys.isEmpty then (m3, 0) else m3.mediaPass s n fault
          let parts := xs.map fun x => (x, m3.contentAt (m3.pageFor tag) c.asn s n x)
          if st ≠ 0 then m4.decideOpen tag st
          else match parts.find? fun p => p.2.isNone with
          | some _ => ((parts.filter fun p => p.2.isNone).foldl (fun m p => m.lostGrain s n p.1) m3).decideOpen tag 0x0300
          | none =>
            let u := unitBlocks fine
            let all := (parts.filterMap (·.2)).flatten
            let data := (all.drop (4096 * (c.ent.lba - g.1 * u))).take (4096 * c.ent.nblk)
            let bad := m3.badHints c
            (m3.sendData tag c 0 data).decide_ tag (if bad = 0 then 0 else 1) bad

/-! ## FLUSH (R275, R317, R333) -/

/-- FLUSH does what it can now: it closes the landing stripes that earlier grains of its namespace stand in, and once all of them are
mapped, the journal page that records them. -/
def Mach.flushCmd (m : Mach) (tag : Nat) : Mach :=
  match m.ready? tag 0x04 with
  | none => m
  | some c =>
    let s := c.owner.getD 0
    let n := c.ent.nsid
    let m1 := m.setCmd tag { c with started := true, phase := .running }
    let mine := m1.map.work.filter fun g => g.slice == s && g.ns == n && !g.mapped && asnBefore g.asn c.asn
    let sets := m1.map.sets.filter fun e => e.2.landing && e.2.state == .open_ &&
      mine.any fun g => g.set == e.1 && g.issued && !g.landed && (m1.stripesOf g).contains e.2.stripe
    let m2 := if m1.pwr.stop then m1 else sets.foldl (fun m e => m.fillStripe e.1) m1
    let unformed := m2.hq.cmds.any fun e => writes e.2.ent.opc && e.2.owner == c.owner && e.2.ent.nsid == n && e.2.stopReq.isNone &&
      asnBefore e.2.asn c.asn && e.2.count != m2.grainCount e.2
    if !mine.isEmpty || unformed then m2
    else
      let m3 := m2.closeJournal
      (m3.setCmd tag { c with started := true, phase := .running, count := m3.map.jsn }).decide_ tag 0 0

/-! ## Commands -/

/-- WRITE (R318): `fault` is the grain and the unit, if any, whose self-check fails on its image (R417, R432). -/
def execWrite (tag : Fin 65536) (fault : Option (Nat × UnitFault)) (s : State) : Host.Outcome State Fault Refusal :=
  s.onCommand tag fun m => m.writeCmd tag 0x03 fault

/-- TRIM (R320), with a fault as a WRITE's. -/
def execTrim (tag : Fin 65536) (fault : Option (Nat × UnitFault)) (s : State) : Host.Outcome State Fault Refusal :=
  s.onCommand tag fun m => m.writeCmd tag 0x05 fault

/-- READ (R271): `fault` is the pair, if any, that meets a difference as it decrypts (R425, R432). -/
def execRead (tag : Fin 65536) (fault : Option (Fin 4)) (s : State) : Host.Outcome State Fault Refusal :=
  s.onCommand tag fun m => m.readCmd tag fault

/-- FLUSH (R275). -/
def execFlush (tag : Fin 65536) (s : State) : Host.Outcome State Fault Refusal := s.onCommand tag fun m => m.flushCmd tag

/-- LANDING_COMPLETE (R318). -/
def execLandingComplete (tag : Fin 65536) (grain : Nat) (s : State) : Host.Outcome State Fault Refusal :=
  s.act fun m => m.fabric fun m => m.landed tag grain

/-- LANDING_STRIPE_TIMEOUT (R317). -/
def execLandingStripeTimeout (set : Nat) (s : State) : Host.Outcome State Fault Refusal :=
  s.act fun m => m.fabric fun m => m.stripeTimeout set

/-- MAP_UPDATE (R318): the map update of a landed grain. -/
def execMapUpdate (tag : Fin 65536) (grain : Nat) (s : State) : Host.Outcome State Fault Refusal :=
  s.act fun m => m.fabric fun m =>
    match m.map.work.find? fun g => g.tag == tag.val && g.grain == grain && !g.mapped && (g.landed || g.kind == .zero) with
    | some g => m.tryMap g.asn grain
    | none => m

end Sys2Proof.Machine
end

