-- ==== Sys2Proof/Machine/MapCmds.lean ====
section
/-! DEFINITION. Background work of media translation: fold, reclaim, refresh and sweep, the journal and checkpoints, map page loads, seals,
shelf time, and the MAP registers (R323 to R328, R333, R334, R338, R346 to R352). -/

namespace Sys2Proof.Machine

/-- Address of a MAP register. -/
def mapReg (off : Nat) : Nat := 0x200700000 + off

/-! ## Moving images (R323, R324, R327) -/

/-- Are media operations held: STOP (R598), or the hold rules (R588)? -/
def Mach.mediaHeld (m : Mach) : Bool := m.pwr.stop || m.inhibited

/-- The page under construction in a set is filled with zeros, so that its program can be verified (R324). -/
def Mach.padPage (m : Mach) (n : Nat) : Mach :=
  match m.mset? n with
  | none => m
  | some s => if s.off = 0 then m else m.stage n none 0 2 (zeros (16384 - s.off))

/-- Copy the stored bytes of an entry into the open dense set of a class; the move waits for its commit (R323 step 1, R327 step 1). -/
def Mach.copyMove (m : Mach) (fine : Bool) (k : Nat) (quad cls from_ : Nat) (spare : Bool) : Mach :=
  let e := m.entry fine k
  let (x, g) := unkey fine k
  match m.extent fine e with
  | none => m
  | some t =>
    match m.extentBytes m.pageData t with
    | none => m.lostGrain (x / 16) (x % 16) g
    | some b =>
      let paged := t.raw && !fine
      match m.place false fine paged spare quad cls none 0 b with
      | none => m
      | some (n, stripe, pos, off, m1) =>
        match (m1.mset? n).bind fun s => s.key stripe pos with
        | none => m
        | some p =>
          let loc : Place := { die := keyDie p, block := keyBlock p, page := p % 4096, off := off }
          let new_ := if fine then fineWord (fineGen e) loc else if paged then entryWord 2 loc 0 else entryWord 1 loc (b.length / 64)
          let img := m1.map.imgs.find? fun i => i.fine && i.set == t.set && i.stripe == t.stripe && i.pos == t.pos && i.off == t.off
          let tag := match img with
            | some i => slotTag (x / 16) (x % 16) i.gen i.boot g i.asn i.lsn
            | none => slotTag (x / 16) (x % 16) (fineGen e) 0 g 0 0
          let m2 := if fine then m1.putTag n stripe pos off tag else m1
          Mach.spareCheck { m2 with map := { m2.map with
            moves := m2.map.moves ++ [{ jsn := 0, key := k, fine := fine, new_ := new_, old := e, from_ := from_ }] } }

/-- Is every page of a moved copy programmed and verified (R324)? -/
def Mach.committed (m : Mach) (v : Move) : Bool :=
  match m.extent v.fine v.new_ with
  | none => false
  | some t => (m.extentKeys t).all fun k => ((tget? m.fch.pages k).map (·.verified)).getD false

/-- The sets that hold the copies of moves. -/
def Mach.padMoves (m : Mach) (p : Move → Bool) : Mach :=
  (m.map.moves.filter fun v => p v && v.jsn == 0).foldl (fun m v =>
    match m.extent v.fine v.new_ with
    | some t => if m.committed v then m else m.padPage t.set
    | none => m) m

/-- Moves that reached their commit take their records: FOLD (4) or RECLAIM (5) (R323 step 3, R327 step 2). -/
def Mach.recordMoves (m : Mach) (typ : Nat) (p : Move → Bool) : Mach :=
  (List.range m.map.moves.length).foldl (fun m i =>
    match m.map.moves[i]? with
    | some v =>
      if p v && v.jsn == 0 && m.committed v then
        let (x, g) := unkey v.fine v.key
        let m1 := m.jrec typ (x % 16) (x / 16) (w64 g) v.new_ v.old
        { m1 with map := { m1.map with moves := m1.map.moves.set i { v with jsn := m1.map.jsn } } }
      else m
    | none => m) m

/-- FOLD_COMMIT: an image that its entry still names is copied, and recorded once its copy has reached the commit (R323). -/
def Mach.fold (m : Mach) (lsn : Nat) : Mach :=
  if m.mediaHeld then m
  else match m.map.imgs.find? fun g => g.lsn == lsn with
    | none => m
    | some g =>
      let k := mapKey g.fine g.slice g.ns g.grain
      let here := match m.extent g.fine (m.entry g.fine k) with
        | some t => t.set == g.set && t.stripe == g.stripe && t.pos == g.pos && t.off == g.off + (if g.fine then 0 else 64)
        | none => false
      let mine := fun (v : Move) => v.fine == g.fine && v.key == k && v.from_ == g.set
      if m.map.moves.any mine then (m.padMoves mine).recordMoves 4 mine
      else if here then
        let quad := ((m.mset? g.set).map (·.quad)).getD 0
        (m.copyMove g.fine k quad (if g.warm then 1 else 0) g.set false).recordMoves 4 mine
      else m

/-- Keys whose entries name a location in a set. -/
def Mach.liveIn (m : Mach) (n : Nat) : List (Bool × Nat) :=
  let f := fun (fine : Bool) (t : Tab W64) => t.filterMap fun e =>
    match m.extent fine e.2 with
    | some x => if x.set = n then some (fine, e.1) else none
    | none => none
  f false m.map.coarse ++ f true m.map.fine

/-- Does a read that looked up a location in the set still wait (R328)? -/
def Mach.readsIn (m : Mach) (s : MSet) : Bool :=
  s.members.any fun b =>
    let d := m.die b.1
    let hit := fun (op : DieOp) => op.kind == .read && op.block == b.2
    d.queue.any hit || d.cur.any fun c => hit c.op || c.more.any hit

/-- Keys of journal records that are not durable yet. -/
def Mach.undurable (m : Mach) : List (Nat × Nat × Nat) :=
  (m.map.jopen ++ m.map.jqueue.flatMap (·.recs)).map fun r => (r.slice, r.ns, r.w1.toNat)

/-- May a set be erased: nothing names it, no move leaves it, no read looks into it, and, for a landing set, the durable journal has passed
every image in it (R325, R328)? -/
def Mach.mayErase (m : Mach) (n : Nat) (s : MSet) : Bool :=
  (m.liveIn n).isEmpty && !(m.map.moves.any fun v => v.from_ == n) && !m.readsIn s &&
    !(m.map.work.any fun g => g.set == n && g.issued && !g.mapped) &&
    (m.map.imgs.filter fun g => g.set == n).all fun g => decide (g.lsn < m.map.lwm) && !m.undurable.contains (g.slice, g.ns, g.grain)

/-- Is an erase of a block queued or under way? -/
def Mach.erasing (m : Mach) (d b : Nat) : Bool :=
  let v := m.die d
  let hit := fun (op : DieOp) => op.kind == .erase && op.block == b
  v.queue.any hit || v.cur.any (fun c => hit c.op) || v.susp.any fun c => hit c.op

/-- Erases of an ERASING set enter their die queues (R327 step 4). -/
def Mach.queueErases (m : Mach) (n : Nat) : Mach :=
  match m.mset? n with
  | none => m
  | some s => s.toErase.foldl (fun m b =>
      if m.erasing b.1 b.2 then m
      else m.enqueue b.1 { kind := .erase, cls := 4, block := b.2, page := 0, slice := none, at_ := m.tb, why := .erase n }) m

/-- A set that may be erased is marked ERASING, and its erases are queued; one with no block on a die in service is RETIRED. -/
def Mach.eraseSet (m : Mach) (n : Nat) : Mach :=
  match m.mset? n with
  | none => m
  | some s =>
    if !m.mayErase n s then m
    else
      let left := s.members.filter fun b => m.dieUp b.1
      let m1 : Mach := { m with map := { m.map with imgs := m.map.imgs.filter fun g => g.set != n } }
      if left.isEmpty then (m1.setMset n { s with toErase := [] }).setState n .retired
      else (((m1.setMset n { s with victim := true, toErase := left }).setState n .erasing)).queueErases n

/-- Copy every live image of a set into a class, and record those that reached their commit. -/
def Mach.emptySet (m : Mach) (n cls : Nat) : Mach :=
  match m.mset? n with
  | none => m
  | some s =>
    let todo := (m.liveIn n).filter fun k => !(m.map.moves.any fun v => v.fine == k.1 && v.key == k.2 && v.from_ == n)
    let m1 := todo.foldl (fun m k => m.copyMove k.1 k.2 s.quad cls n true) (m.setMset n { s with victim := true })
    let mine := fun (v : Move) => v.from_ == n
    (m1.padMoves mine).recordMoves 5 mine

/-- RECLAIM of a set (R327): what is live in it moves to the next class, and when nothing is left in it, its blocks are erased. -/
def Mach.reclaim (m : Mach) (n : Nat) : Mach :=
  if m.mediaHeld then m
  else match m.mset? n with
    | none => m
    | some s =>
      match s.state with
      | .closed => if s.landing then m.eraseSet n else (m.emptySet n (if s.cls ≤ 1 then 2 else 3)).eraseSet n
      | .erasing => m.queueErases n
      | _ => m

/-! ## The journal (R333, R334) -/

/-- Records that have become durable take effect: moves whose entry still equals OLD (R323 step 4, R327 step 3), and checkpoints. -/
def Mach.applyDurable (m : Mach) : Mach :=
  let done := m.map.moves.filter fun v => v.jsn != 0 && decide (v.jsn ≤ m.map.jsnDone)
  let m1 : Mach := { m with map := { m.map with moves := m.map.moves.filter fun v => !(v.jsn != 0 && decide (v.jsn ≤ m.map.jsnDone)) } }
  let m2 := done.foldl (fun m v => if m.entry v.fine v.key = v.old then m.setEntry v.fine v.key v.new_ else m) m1
  let cs := m2.map.ckptWait.filter fun c => decide (c.jsn ≤ m2.map.jsnDone)
  let m3 : Mach := { m2 with map := { m2.map with ckptWait := m2.map.ckptWait.filter fun c => decide (m2.map.jsnDone < c.jsn) } }
  cs.foldl (fun m c =>
    if c.seg then { m with map := { m.map with ckptSegs := tset m.map.ckptSegs c.key c.ckpt } }
    else { m with map := { m.map with ckpts := tset m.map.ckpts c.key c.ckpt } }) m3

/-- The page at the head of the line is verified in both copies (R333). -/
def Mach.journalDurable (m : Mach) : Mach :=
  match m.map.jqueue with
  | [] => m
  | p :: rest =>
    if m.mediaHeld then m
    else
      let last := (p.recs.getLast?.map (·.jsn)).getD m.map.jsnDone
      let m1 : Mach := { m with map := { m.map with jqueue := rest, jdone := m.map.jdone ++ [{ p with stamp := m.tb }], jsnDone := last, lwm := p.lwm } }
      let m2 := m1.applyDurable.settle
      { m2 with map := { m2.map with work := m2.map.work.filter fun g => !(g.kind == .zero && g.mapped && decide (g.jsn ≤ m2.map.jsnDone) &&
          !(m2.hq.cmds.any fun e => e.2.asn == g.asn)) } }

/-- A page is written 50 ms after its first record at the latest (R333). -/
def Mach.journalTimeout (m : Mach) : Mach :=
  if !m.map.jopen.isEmpty && decide (m.map.jopenAt + 5000000 ≤ m.tb) then m.closeJournal else m

/-- The checkpoint of a map page (256 entries) or fine segment (512 entries), and its record (R334). -/
def Mach.checkpoint (m : Mach) (seg : Bool) (key : Nat) : Mach :=
  if m.mediaHeld || (if seg then m.map.coldSeg.contains key else m.map.cold.contains key) then m
  else
    let n := if seg then 512 else 256
    let es := (if seg then m.map.fine else m.map.coarse).filter fun e => e.1 / n == key
    let covered := (m.map.moves.filter fun v => v.fine == seg && v.key / n == key && v.jsn != 0).foldl (fun a v => Nat.min a (v.jsn - 1)) m.map.jsn
    let per := 2 ^ (if seg then 38 else 30) / n
    let (x, i) := (key / per, key % per)
    let (loc, m1) := m.draw (2 ^ 61)
    let m2 := m1.jrec (if seg then 8 else 7) (x % 16) (x / 16) (w64 i) (at_ 61 2 ||| w64 loc) (w64 covered)
    { m2 with map := { m2.map with ckptWait := m2.map.ckptWait ++
        [{ jsn := m2.map.jsn, seg := seg, key := key, ckpt := { entries := es, jsn := covered } }] } }

/-- A map page or segment has been loaded and rebuilt (R312, R338): waiting commands proceed. The last one makes the map resident. -/
def Mach.loadPage (m : Mach) (seg : Bool) (key : Nat) : Mach :=
  let was := m.map.cold.isEmpty && m.map.coldSeg.isEmpty
  let p := m.map
  let p1 := if seg then { p with coldSeg := p.coldSeg.filter (· != key), badFine := p.badFine.filter fun k => k / 512 != key }
    else { p with cold := p.cold.filter (· != key), bad := p.bad.filter fun k => k / 256 != key }
  let m1 : Mach := { m with map := p1 }
  let odd := if seg then none else (m1.map.coarse.find? fun e => e.1 / 256 == key && !entryOk e.2).map (·.1)
  let m2 := match odd with
    | some k => m1.alarm 0 k
    | none => m1
  if !was && p1.cold.isEmpty && p1.coldSeg.isEmpty && p1.mount == 5 then
    (Mach.raise { m2 with map := { m2.map with resident := true } } 1013).bootStep 9
  else m2

/-! ## Seals (R347, R348) -/

/-- A seal is lifted: a SEAL record and event 1009. -/
def Mach.liftNs (m : Mach) (s n : Nat) : Mach :=
  if m.map.seals.contains (nsKey s n) then
    ((Mach.jrec { m with map := { m.map with seals := m.map.seals.filter (· != nsKey s n) } } 0xC n s 0 0 0).raise 1009).mediaLog 1009 s n 0
  else m
/-- The module seal is lifted. -/
def Mach.liftModule (m : Mach) : Mach :=
  if m.map.modSeal then
    ((Mach.jrec { m with map := { m.map with modSeal := false } } 0xC 0 0 2 0 0).raise 1009).mediaLog 1009 0 0 0
  else m

/-- Stored usage of a namespace at or above its limit (R348)? -/
def Mach.atLimit (m : Mach) (s n : Nat) : Bool :=
  let l := tget 0 m.map.nslim (nsKey s n)
  l != 0 && decide (l * 16384 ≤ m.nsUse s n)

/-! ## The retention sweep (R349, R350) -/

/-- Closed sets that hold live data. -/
def Mach.sweepList (m : Mach) : List Nat :=
  (m.map.sets.filter fun e => e.2.state == .closed && !(m.liveIn e.1).isEmpty).map (·.1)

/-- The end of a sweep, once every set is visited. -/
def Mach.sweepEnd (m : Mach) : Mach :=
  match m.map.sweep with
  | some w => if w.todo.isEmpty then Mach.raise { m with map := { m.map with sweep := none } } 1011 else m
  | none => m

/-- A sweep starts (R350): event 1010. -/
def Mach.sweepStart (m : Mach) : Mach :=
  Mach.sweepEnd (Mach.raise { m with map := { m.map with sweep := some { todo := m.sweepList }, sweepSets := 0, sweepRefr := 0 } } 1010)

/-- The sweep samples a set; one that decays is refreshed into its own class (R350). -/
def Mach.sweepSet (m : Mach) (n bits : Nat) (deep : Bool) : Mach :=
  match m.map.sweep with
  | none => m
  | some w =>
    let bad := (decide (m.map.retBits < bits) || deep) && ((m.mset? n).map (·.state)) == some .closed
    if !w.todo.contains n || (bad && m.mediaHeld) then m
    else
      let m1 : Mach := { m with map := { m.map with sweep := some { todo := w.todo.filter (· != n) }, sweepSets := sat (2 ^ 32 - 1) (m.map.sweepSets + 1),
                                                    sweepRefr := if bad then sat (2 ^ 32 - 1) (m.map.sweepRefr + 1) else m.map.sweepRefr } }
      let m2 := if bad then (m1.emptySet n (((m1.mset? n).map (·.cls)).getD 0)).eraseSet n else m1
      m2.sweepEnd

/-- A write to MAP_TIME (R349): a TIME record; the first after a mount decides the unpowered period. -/
def Mach.timeWrite (m : Mach) (v : W64) : Mach :=
  let before := m.map.jdone.filter fun p => p.boot != m.map.boot
  let late : Bool := match m.map.timeRec with
    | none => true
    | some (tb, shelf) =>
      let boot : Int := v.toNat - m.tb
      let stamp : Int := (before.getLast?.map (·.stamp)).getD tb
      let loss : Int := shelf + (stamp - tb)
      decide (boot - loss > 60480000000000)
  let first := !m.map.timeSet
  let m1 := Mach.jrec { m with map := { m.map with time := v, timeSet := true, timeRec := some (m.tb, v.toNat) } } 0xD 0 0 0 (w64 m.tb) v
  if first && late then m1.sweepStart else m1

/-! ## Registers (R352) -/

/-- A write to MAP_CTL. -/
def Mach.mapCtl (m : Mach) (w : Who) (v : W64) : Mach × RegOut :=
  let s := fld v 15 8
  let n := fld v 3 0
  let ok := match fld v 63 60 with
    | 1 => !m.atLimit s n
    | 2 => m.spare != 0
    | 3 => true
    | _ => false
  m.writeReg w (mapReg 8) v (rsvBits [(63, 60), (15, 8), (3, 0)]) w.low ok fun m =>
    match fld v 63 60 with
    | 1 => m.liftNs s n
    | 2 => m.liftModule
    | _ => m.sweepStart

/-- A write to MAP_TIME. -/
def Mach.mapTime (m : Mach) (w : Who) (v : W64) : Mach × RegOut := m.writeReg w (mapReg 0x18) v 0 w.low true fun m => m.timeWrite v

/-- A read of a MAP register. -/
def Mach.mapRead (m : Mach) (w : Who) (off : Nat) : Mach × RegOut :=
  let p := m.map
  if 0x1000 ≤ off ∧ off < 0x9000 then
    let i := (off - 0x1000) / 8
    (m, .value (if w.low || w.of (i / 16) then flagAt 63 (p.seals.contains i) ||| w64 (tget 0 p.nslim i) else 0))
  else if 0x9000 ≤ off ∧ off < 0x11000 then
    let i := (off - 0x9000) / 8
    (m, .value (if w.low || w.of (i / 16) then w64 (Nat.min (2 ^ 48 - 1) (m.nsUse (i / 16) (i % 16))) else 0))
  else if !w.low then (m, .denied 1)
  else match off with
    | 0x00 => (m, .value (at_ 54 m.spare ||| at_ 8 p.warn ||| flagAt 6 p.modSeal ||| flagAt 5 p.sweep.isSome ||| flagAt 4 p.resident |||
        at_ 0 p.mount))
    | 0x10 => (m, .value (at_ 48 p.landMax ||| at_ 32 p.reserve ||| at_ 16 p.retBits))
    | 0x18 => (m, .value p.time)
    | 0x20 => (m, .value (at_ 16 p.jsnDone))
    | 0x28 => (m, .value (w64 p.lwm))
    | 0x30 => (m, .value (w64 p.boot))
    | 0x38 => (m, .value (at_ 32 p.sweepSets ||| at_ 0 p.sweepRefr))
    | _ => (m, .value 0)

/-- A write of a MAP register. -/
def Mach.mapWrite (m : Mach) (w : Who) (off : Nat) (v : W64) : Mach × RegOut :=
  let a := mapReg off
  if 0x1000 ≤ off ∧ off < 0x9000 then
    m.writeReg w a v (rsvBits [(63, 63), (31, 0)]) w.low true fun m =>
      { m with map := { m.map with nslim := tset m.map.nslim ((off - 0x1000) / 8) (fld v 31 0) } }
  else if 0x9000 ≤ off ∧ off < 0x11000 then m.idleWrite w a v (rsvBits [(47, 0)])
  else match off with
    | 0x00 => m.idleWrite w a v (rsvBits [(63, 54), (9, 8), (6, 4), (2, 0)])
    | 0x08 => m.mapCtl w v
    | 0x10 =>
      m.writeReg w a v (rsvBits [(63, 16)]) w.low
        (decide (64 ≤ fld v 63 48 ∧ fld v 63 48 ≤ 4096) && decide (32 ≤ fld v 47 32 ∧ fld v 47 32 ≤ 4096) &&
          decide (1 ≤ fld v 31 16 ∧ fld v 31 16 ≤ 2048)) fun m =>
        { m with map := { m.map with landMax := fld v 63 48, reserve := fld v 47 32, retBits := fld v 31 16 } }
    | 0x18 => m.mapTime w v
    | 0x20 => m.idleWrite w a v (rsvBits [(63, 16)])
    | 0x28 => m.idleWrite w a v 0
    | 0x30 => m.idleWrite w a v (rsvBits [(31, 0)])
    | 0x38 => m.idleWrite w a v 0
    | _ => m.idleWrite w a v (BitVec.allOnes 64)

/-! ## Commands -/

/-- FOLD_COMMIT (R323). -/
def execFoldCommit (lsn : Nat) (s : State) : Host.Outcome State Fault Refusal := s.act fun m => m.fabric fun m => m.fold lsn

/-- RECLAIM (R327). -/
def execReclaim (set : Nat) (s : State) : Host.Outcome State Fault Refusal := s.act fun m => m.fabric fun m => m.reclaim set

/-- JOURNAL_PAGE_TIMEOUT (R333). -/
def execJournalPageTimeout (s : State) : Host.Outcome State Fault Refusal := s.act fun m => m.fabric fun m => m.journalTimeout

/-- JOURNAL_PAGE_DURABLE (R333). -/
def execJournalPageDurable (s : State) : Host.Outcome State Fault Refusal := s.act fun m => m.fabric fun m => m.journalDurable

/-- CHECKPOINT (R334). -/
def execCheckpoint (seg : Bool) (key : Nat) (s : State) : Host.Outcome State Fault Refusal :=
  s.act fun m => m.fabric fun m => m.checkpoint seg key

/-- MAP_PAGE_LOAD (R338). -/
def execMapPageLoad (seg : Bool) (key : Nat) (s : State) : Host.Outcome State Fault Refusal :=
  s.act fun m => m.fabric fun m => m.loadPage seg key

/-- UNSEAL_NS (R348): a write to MAP_CTL that commands it. -/
def execUnsealNs (w : Who) (sl : Fin 256) (ns : Fin 16) (s : State) : Host.Outcome State Fault Refusal :=
  s.access fun m => m.mapCtl w (at_ 60 1 ||| at_ 8 sl ||| at_ 0 ns)

/-- UNSEAL_MODULE (R348). -/
def execUnsealModule (w : Who) (s : State) : Host.Outcome State Fault Refusal := s.access fun m => m.mapCtl w (at_ 60 2)

/-- SWEEP (R350). -/
def execSweep (w : Who) (s : State) : Host.Outcome State Fault Refusal := s.access fun m => m.mapCtl w (at_ 60 3)

/-- MAP_TIME_WRITE (R349). -/
def execMapTimeWrite (w : Who) (v : W64) (s : State) : Host.Outcome State Fault Refusal := s.access fun m => m.mapTime w v

/-- MAP_TIME_TIMEOUT (R349): 60 s have passed with no write of MAP_TIME. -/
def execMapTimeTimeout (s : State) : Host.Outcome State Fault Refusal :=
  s.act fun m => m.fabric fun m =>
    if decide (6000000000 ≤ m.tb) && !m.map.timeSet && !m.map.timeDue && m.map.mount == 5
    then Mach.sweepStart { m with map := { m.map with timeDue := true } } else m

/-- RETENTION_SWEEP (R350). -/
def execRetentionSweep (set : Nat) (bits : Nat) (deep : Bool) (s : State) : Host.Outcome State Fault Refusal :=
  s.act fun m => m.fabric fun m => m.sweepSet set bits deep

end Sys2Proof.Machine
end

