-- ==== Sys2Proof/Machine/Slices.lean ====
section
/-! DEFINITION. Slices: pools, descriptors, creation and destruction, the binding table, and the SLC registers (chapter 08; key slots
R449 to R455; winnow regions R463). -/

namespace Sys2Proof.Machine

/-- Address of an SLC register. -/
def slcReg (off : Nat) : Nat := 0x200600000 + off

/-! ## Key slots (R449 to R455) -/

/-- The ASCII bytes of a text. -/
def ascii (s : String) : List Byte := s.toList.map fun c => BitVec.ofNat 8 c.toNat

/-- A key slot changes: one more write of it; a persistent key goes to the key store (R451, R455). -/
def Mach.writeKey (m : Mach) (k : Nat) (v : Key) : Mach :=
  let v1 := { v with gen := sat (2 ^ 32 - 1) ((m.key k).gen + 1), cplOk := true }
  let m1 := m.setKey k v1
  let st := if v1.persist && v1.valid then tset m1.dgs.store k v1 else tdel m1.dgs.store k
  { m1 with dgs := { m1.dgs with store := st } }

/-- Role of a slot of a slice's range: its usage and ring (R293, R450). -/
def Desc.role (d : Desc) (k : Nat) : Usage × Nat :=
  let i := k - d.ksfirst
  if i = 0 then (.seal_, 0)
  else if i ≤ 2 * d.nscnt then (if i % 2 = 1 then .xts1 else .xts2, 0)
  else (.general, 2)

/-- A slot of slice s's range with a value, or empty. -/
def Desc.slot (d : Desc) (s k : Nat) (v : Option (BitVec 256)) : Key :=
  let r := d.role k
  { value := v.getD 0, valid := v.isSome, usage := r.1, ring := r.2, slown := true, persist := true, slice := s, gen := 0, cplOk := true }

/-- A 256-bit key from 32 bytes. -/
def keyOf (l : List Byte) : BitVec 256 := BitVec.ofNat 256 (leNat (l.take 32))

/-- A 32-byte value from the entropy source (R453). -/
def Mach.entropy (m : Mach) : List Byte × Mach := (leBytes 32 (Config.entropy m.free).toNat, { m with free := m.free + 1 })

/-- The media key pair of namespace n of slice s is derived into its slots (R453). -/
def Mach.deriveMedia (m : Mach) (s n : Nat) : Mach :=
  let (e, m1) := m.entropy
  let r := Alg.hmac512.mac (m.key 0).value (ascii "HK96XTS" ++ [BitVec.ofNat 8 s, BitVec.ofNat 8 n] ++ e)
  let d := (m.slice s).desc
  let k := d.ksfirst + 1 + 2 * n
  (m1.writeKey k (d.slot s k (some (keyOf r)))).writeKey (k + 1) (d.slot s (k + 1) (some (keyOf (r.drop 32))))

/-! ## Pools (R290, R291, R307) -/

/-- Remaining program-memory units in reduced-DRAM mode, and all of them otherwise (R555). -/
def Mach.unitTotal (m : Mach) : Nat := if m.drc.mode = 2 then 256 else 512

/-- Total of pool k. -/
def Mach.poolTotal (m : Mach) (k : Nat) : Nat :=
  match k with
  | 0 => 2 ^ 30
  | 1 => 511
  | 2 => 12288 - (m.cls 0).floor
  | 3 => 3584
  | 4 => m.unitTotal
  | 5 => 57344
  | 6 => 1984
  | 7 => 1024
  | _ => 0

/-- What a descriptor takes from pool k. -/
def Desc.takes (d : Desc) (k : Nat) : Nat :=
  match k with
  | 0 => (d.ns.map (·.grains)).sum
  | 1 => d.qpcnt
  | 2 => d.bufq
  | 3 => d.tcbq
  | 4 => d.pmcnt
  | 5 => d.wnq
  | 6 => d.kscnt
  | 7 => d.toksh
  | _ => 0

/-- Descriptors of the slices that are not FREE. -/
def Mach.descs (m : Mach) : List Desc := (m.slc.slices.filter fun e => e.2.state != .free).map (·.2.desc)

/-- What all slices hold of pool k. -/
def Mach.poolHeld (m : Mach) (k : Nat) : Nat := (m.descs.map fun d => d.takes k).sum

/-- Do two half-open ranges of given lengths meet? -/
def rangesMeet (a n b k : Nat) : Bool := n != 0 && k != 0 && decide (a < b + k) && decide (b < a + n)

/-- The first pool whose exclusive range another slice holds, or whose units are withdrawn (R299 step 2, R555). -/
def Mach.rangeClash (m : Mach) (d : Desc) : Option Nat :=
  if m.descs.any fun o => rangesMeet d.qpfirst d.qpcnt o.qpfirst o.qpcnt then some 1
  else if (m.descs.any fun o => rangesMeet d.pmfirst d.pmcnt o.pmfirst o.pmcnt) ||
      (List.range d.pmcnt).any (fun i => m.slc.withdrawn.contains (d.pmfirst + i)) then some 4
  else if m.descs.any fun o => rangesMeet d.ksfirst d.kscnt o.ksfirst o.kscnt then some 6
  else none

/-! ## The descriptor (R296) -/

/-- A descriptor's fields. -/
def descOf (b : List Byte) : Desc :=
  let f := fun (o n : Nat) => leAt b o n
  let ns := (List.range (f 9 1)).map fun n => let w := w64 (f (0x40 + 8 * n) 8); ({ kind := fld w 63 56, grains := fld w 30 0 } : NsDesc)
  { tmask := w64 (f 0 8), ceil := f 8 1, nscnt := f 9 1, qpfirst := f 0xA 2, qpcnt := f 0xC 2, bufq := f 0x10 2, tcbq := f 0x12 2,
    pmfirst := f 0x14 2, pmcnt := f 0x16 2, wnq := f 0x18 2, ksfirst := f 0x1A 2, kscnt := f 0x1C 2, toksh := f 0x1E 2, ns := ns }

/-- Offset of the first invalid field of a descriptor: each field alone, then the rules that join fields (R296, R638). -/
def Mach.descBad (m : Mach) (b : List Byte) : Option Nat :=
  let f := fun (o n : Nat) => leAt b o n
  let nsW := fun (n : Nat) => w64 (f (0x40 + 8 * n) 8)
  let nsOk := fun (n : Nat) =>
    let w := nsW n
    w == 0 || ((fld w 63 56 == 1 || fld w 63 56 == 2) && fld w 55 31 == 0 && decide (1 ≤ fld w 30 0) && decide (fld w 30 0 ≤ 2 ^ 30))
  let one : List (Nat × Bool) :=
    [(0, f 0 8 != 0), (8, decide (f 8 1 ≤ 31)), (9, decide (f 9 1 ≤ 16)), (0xA, decide (f 0xA 2 ≤ 511)), (0xC, decide (f 0xC 2 ≤ 511)),
     (0xE, f 0xE 2 == 0), (0x10, decide (f 0x10 2 ≤ m.poolTotal 2)), (0x12, decide (f 0x12 2 ≤ 3584)), (0x14, decide (f 0x14 2 ≤ 511)),
     (0x16, decide (f 0x16 2 ≤ 128)), (0x18, decide (f 0x18 2 ≤ 57344)), (0x1A, decide (64 ≤ f 0x1A 2) && decide (f 0x1A 2 ≤ 2047)),
     (0x1C, decide (f 0x1C 2 ≤ 1984)), (0x1E, decide (1 ≤ f 0x1E 2) && decide (f 0x1E 2 ≤ 1024)), (0x20, f 0x20 32 == 0)] ++
    (List.range 16).map fun n => (0x40 + 8 * n, nsOk n)
  let d := descOf b
  let two : List (Nat × Bool) :=
    [(9, decide (1 + 2 * d.nscnt ≤ d.kscnt) && (List.range 16).all fun n => (nsW n != 0) == decide (n < d.nscnt)),
     (0xA, if d.qpcnt = 0 then d.qpfirst == 0 else decide (1 ≤ d.qpfirst) && decide (d.qpfirst + d.qpcnt - 1 ≤ 511)),
     (0x14, if d.pmcnt = 0 then d.pmfirst == 0 else decide (d.pmfirst + d.pmcnt ≤ 512) && d.pmfirst / 128 == (d.pmfirst + d.pmcnt - 1) / 128),
     (0x1A, decide (d.ksfirst + d.kscnt ≤ 2048))]
  ((one ++ two).find? fun x => !x.2).map (·.1)

/-! ## Creating and destroying (R297 to R300) -/

/-- The slice command ends with a result. -/
def Mach.slcEnd (m : Mach) (res pool off : Nat) : Mach :=
  { m with slc := { m.slc with busy := false, cmdRes := res, cmdPool := pool, cmdOff := off } }

/-- Address of program-memory unit u (R292). -/
def unitAddr (u : Nat) : Nat := dramBase + (u / 128) * rangeSize + 0x40000000 + (u % 128) * 0x1000000

/-- Every program-memory unit of a descriptor is zeroed. -/
def Mach.zeroUnits (m : Mach) (d : Desc) : Mach :=
  (List.range d.pmcnt).foldl (fun m i => m.zero (unitAddr (d.pmfirst + i)) (unitAddr (d.pmfirst + i) + 0x1000000)) m

/-- The lowest free segments of the general banks make a region (R463). -/
def Mach.giveRegion (m : Mach) (s : Nat) (d : Desc) : Mach :=
  let used := m.wnw.segs.flatMap (·.2)
  let free := (List.range 3584).filter fun i => !used.contains i
  { m with wnw := { m.wnw with segs := tset m.wnw.segs s (free.take (d.wnq / 16)) } }

/-- The rows of a region are invalidated, and its segments return. -/
def Mach.takeRegion (m : Mach) (s : Nat) : Mach :=
  let mine := tget [] m.wnw.segs s
  { m with wnw := { m.wnw with segs := tdel m.wnw.segs s, rows := m.wnw.rows.filter fun r => !mine.contains (r.1 / 16) } }

/-- CREATE of slice s from the descriptor at an address, steps 1 and 2 (R299); step 3 as well where nothing holds the record. -/
def Mach.slcCreate (m : Mach) (s a : Nat) : Mach :=
  let m0 : Mach := { m with slc := { m.slc with busy := true, cmdSlice := s, cmdOp := 1, cmdRes := 0, cmdPool := 0, cmdOff := 0 } }
  if (m.slice s).state ≠ .free then m0.slcEnd 1 0 0
  else if a % 16 ≠ 0 ∨ !inStore a ∨ regionOf (a + 191) ≠ regionOf a then m0.slcEnd 7 0 0
  else match m0.readBytes a 192 with
    | (m1, .ok b) =>
      (match m1.descBad b with
       | some o => m1.slcEnd 2 0 o
       | none =>
         let d := descOf b
         match (List.range 8).find? fun k => decide (m1.poolTotal k < m1.poolHeld k + d.takes k) with
         | some k => m1.slcEnd 3 k 0
         | none =>
           match m1.rangeClash d with
           | some k => m1.slcEnd 4 k 0
           | none =>
             let m2 := ((m1.setSlice s { state := .creating, desc := d }).setSlq s { quota := d.bufq, held := 0 }).giveRegion s d
             if m2.mediaHeld then m2 else { m2 with slc := { m2.slc with recs := tset m2.slc.recs s { desc := d, destroy := false } } })
    | (m1, _) => m1.slcEnd 7 0 0

/-- Step 4 of CREATE: keys, program memory and mailboxes (R299, R453, R639). -/
def Mach.prepareSlice (m : Mach) (s : Nat) : Mach :=
  let d := (m.slice s).desc
  let free := (List.range d.kscnt).filterMap fun i => if i = 0 ∨ 2 * d.nscnt < i then some (d.ksfirst + i) else none
  let m1 := free.foldl (fun m k => m.writeKey k (d.slot s k none)) m
  let m2 := (List.range d.nscnt).foldl (fun m n => m.deriveMedia s n) m1
  ((m2.zeroUnits d).clearBox s).clearBox (256 + s)

/-- Every resource of a slice returns to its pool, and it is FREE. -/
def Mach.slcFree (m : Mach) (s : Nat) : Mach :=
  let m1 := ((m.takeRegion s).setSlice s Slice.reset).setSlq s Slq.reset
  { m1 with slc := { m1.slc with recs := tdel m1.slc.recs s } }

/-- A creation whose record is durable goes on to LIVE (R299 steps 3 to 5). -/
def Mach.slcCreated (m : Mach) : Mach :=
  let s := m.slc.cmdSlice
  if !m.slc.busy || (m.slice s).state != .creating || m.mediaHeld then m
  else if m.unsound (.slice s) then ((m.meet (.slice s)).slcFree s).slcEnd 2 0 0
  else
    let d := (m.slice s).desc
    let m1 : Mach := { m with slc := { m.slc with recs := tset m.slc.recs s { desc := d, destroy := false } } }
    let m2 := m1.prepareSlice s
    ((m2.setSlice s { state := .live, desc := d }).slcEnd 0 0 0).raise 1002

/-- The destroy record is durable: DESTROYING, and no binding names the slice any more (R300 steps 2 and 3). -/
def Mach.slcDoom (m : Mach) (s : Nat) : Mach :=
  let d := (m.slice s).desc
  let m1 := m.setSlice s { state := .destroying, desc := d }
  let bs := m1.slc.binds.map fun e => if e.2.valid && !e.2.oper && e.2.slice == s then (e.1, { e.2 with valid := false }) else e
  { m1 with slc := { m1.slc with recs := tset m1.slc.recs s { desc := d, destroy := true }, binds := bs } }

/-- DESTROY of slice s (R300): its preconditions, then its record where nothing holds it. -/
def Mach.slcDestroy (m : Mach) (s : Nat) : Mach :=
  let m0 : Mach := { m with slc := { m.slc with busy := true, cmdSlice := s, cmdOp := 2, cmdRes := 0, cmdPool := 0, cmdOff := 0 } }
  let v := m.slice s
  if v.state ≠ .live then m0.slcEnd 1 0 0
  else if (List.range v.desc.qpcnt).any (fun i => (m.qp (v.desc.qpfirst + i)).enable) || tget 0 m.grn.tcbOf s != 0 then m0.slcEnd 5 0 0
  else if m0.mediaHeld then m0 else m0.slcDoom s

/-- Is it a record that changes the map of a slice? -/
def JRec.ofSlice (r : JRec) (s : Nat) : Bool := r.slice == s && decide (1 ≤ r.typ) && decide (r.typ ≤ 8)

/-- The namespaces of slice s leave the map (R300 step 5): entries, images, work and moves; its records replay no more. -/
def Mach.dropNamespaces (m : Mach) (s : Nat) : Mach :=
  let p := m.map
  let mine := fun (b : Nat) (k : Nat) => k / 2 ^ b / 16 == s
  let blank := fun (r : JRec) => if r.ofSlice s then { r with typ := 0 } else r
  let gone := (p.fine.filter fun e => mine 38 e.1).filterMap fun e => (entryLoc true e.2).map Place.slot
  let pages := fun (j : JPage) => { j with recs := j.recs.map blank }
  let bufs := (p.work.filter fun g => g.slice == s).flatMap (·.bufs)
  let p1 := { p with
    coarse := p.coarse.filter fun e => !mine 30 e.1
    fine := p.fine.filter fun e => !mine 38 e.1
    bad := p.bad.filter fun k => !mine 30 k
    badFine := p.badFine.filter fun k => !mine 38 k
    cold := p.cold.filter fun k => !mine 22 k
    coldSeg := p.coldSeg.filter fun k => !mine 29 k
    live := p.live.filter fun x => !gone.contains x
    work := p.work.filter fun g => g.slice != s
    imgs := p.imgs.filter fun g => g.slice != s
    moves := p.moves.filter fun v => !mine (if v.fine then 38 else 30) v.key
    ckpts := p.ckpts.filter fun e => !mine 22 e.1
    ckptSegs := p.ckptSegs.filter fun e => !mine 29 e.1
    ckptWait := p.ckptWait.filter fun c => !mine (if c.seg then 29 else 22) c.key
    jopen := p.jopen.map blank
    jqueue := p.jqueue.map pages
    jdone := p.jdone.map pages
    seals := p.seals.filter fun k => k / 16 != s }
  Mach.releaseAll { m with map := p1 } bufs

/-- Steps 4 to 7 of DESTROY (R300): keys, namespaces, locks, events, mailboxes, winnow entries, buffers and program memory. -/
def Mach.eraseSlice (m : Mach) (s : Nat) : Mach :=
  let d := (m.slice s).desc
  let m1 := (List.range d.kscnt).foldl (fun m i => m.writeKey (d.ksfirst + i) { Key.reset with persist := false }) m
  let m2 := (m1.raise 615).dropNamespaces s
  let lks := m2.mbx.locks.map fun l => if l.2.assigned && l.2.slice == s then (l.1, Lock.reset) else l
  let evs := m2.sch.events.map fun e => if e.2.assigned && e.2.slice == s then (e.1, { e.2 with assigned := false, slice := 0, pend := 0 }) else e
  let m3 : Mach := { m2 with mbx := { m2.mbx with locks := lks }, sch := { m2.sch with events := evs } }
  let m4 := (m3.clearBox s).clearBox (256 + s)
  let m5 := m4.releaseAll ((m4.grn.bufs.filter fun e => e.2.charged == some s).map (·.1))
  let m6 := m5.zeroUnits d
  let m7 : Mach := { m6 with slc := { m6.slc with progs := m6.slc.progs.filter fun e => !(decide (e.1 < 16384) && e.1 / 64 == s) } }
  m7.slcFree s

/-- A destruction runs to its end (R300). -/
def Mach.slcDestroyed (m : Mach) : Mach :=
  let s := m.slc.cmdSlice
  if !m.slc.busy || m.slc.cmdOp != 2 then m
  else
    let m1 := if (m.slice s).state = .live && !m.mediaHeld then m.slcDoom s else m
    if (m1.slice s).state = .destroying && !m1.inhibited then ((m1.eraseSlice s).slcEnd 0 0 0).raise 1003 else m1

/-- The supply hold window expires on a slice record (R299, R300, R590): the command ends with RESULT 6. -/
def Mach.slcExpire (m : Mach) : Mach :=
  let s := m.slc.cmdSlice
  if !m.slc.busy then m
  else if (m.slice s).state = .creating && (tget? m.slc.recs s).isNone then (m.slcFree s).slcEnd 6 0 0
  else if (m.slice s).state = .live && m.slc.cmdOp == 2 then m.slcEnd 6 0 0
  else m

/-- A write to SLC_CMD (R297). -/
def Mach.slcCmd (m : Mach) (w : Who) (v : W64) : Mach × RegOut :=
  let op := fld v 63 60
  let s := fld v 55 48
  let a := fld v 39 0
  let ok := !m.slc.busy && (op == 1 || (op == 2 && a == 0))
  m.writeReg w (slcReg 0) v (rsvBits [(63, 60), (55, 48), (39, 0)]) w.low ok fun m => if op = 1 then m.slcCreate s a else m.slcDestroy s

/-! ## Binding (R302) -/

/-- VALID entries naming a slice, or the operator. -/
def Mach.bindsOf (m : Mach) (o : Option Nat) : Nat :=
  (m.slc.binds.filter fun e => e.2.valid && (match o with | none => e.2.oper | some s => !e.2.oper && e.2.slice == s)).length

/-- A write to SLC_BIND_k: ring 1, and ring 0 as R104 lets it. -/
def Mach.bindWrite (m : Mach) (w : Who) (k : Nat) (v : W64) : Mach × RegOut :=
  let b : Bind := { valid := bit v 63, oper := bit v 62, slice := fld v 55 48, procid := fld v 19 0 }
  let others : Mach := { m with slc := { m.slc with binds := tdel m.slc.binds k } }
  let dup := others.slc.binds.any fun e => e.2.valid && e.2.procid == b.procid
  let full := decide (16 ≤ others.bindsOf (if b.oper then none else some b.slice))
  let live := b.oper || (m.slice b.slice).state == .live
  let ok := !(b.oper && b.slice != 0) && (!b.valid || (!dup && !full && live))
  m.writeReg w (slcReg (0x8000 + 8 * k)) v (rsvBits [(63, 62), (55, 48), (19, 0)]) w.low ok fun m =>
    { m with slc := { m.slc with binds := tset m.slc.binds k b } }

/-- The owner that a process identifier is bound to: none unbound; the operator, or a slice (R303). -/
def Mach.boundOwner (m : Mach) (p : Nat) : Option (Option Nat) :=
  (m.slc.binds.find? fun e => e.2.valid && e.2.procid == p).map fun e => if e.2.oper then none else some e.2.slice

/-- The binding entry of a process identifier is read: one that disagrees reads as not VALID from then on (R597). -/
def Mach.readBinding (m : Mach) (p : Nat) : Mach :=
  match m.slc.binds.find? fun e => e.2.valid && e.2.procid == p with
  | none => m
  | some (k, b) =>
    if m.unsound (.binding k) then
      let m1 := m.meet (.binding k)
      { m1 with slc := { m1.slc with binds := tset m1.slc.binds k { b with valid := false } } }
    else m

/-! ## Registers (R295, R298, R307, R308) -/

/-- Code of a slice state. -/
def SliceState.code : SliceState → Nat
  | .free => 0 | .creating => 1 | .live => 2 | .destroying => 3

/-- A program-table entry as it reads (R295). -/
def Prog.word (p : Prog) : W64 := flagAt 63 true ||| flagAt 62 p.ldc ||| at_ 40 p.span ||| at_ 16 (p.base / 65536)

/-- Word i of a slice's four registers. -/
def Mach.sliceWord (m : Mach) (s i : Nat) : W64 :=
  let v := m.slice s
  let d := v.desc
  match i with
  | 0 => at_ 62 v.state.code ||| at_ 57 d.ceil ||| at_ 52 d.nscnt ||| at_ 43 d.qpfirst ||| at_ 33 d.qpcnt ||| at_ 22 d.toksh |||
      at_ 10 d.tcbq ||| at_ 5 (m.bindsOf (some s))
  | 1 => d.tmask
  | 2 => at_ 48 d.wnq ||| at_ 37 d.ksfirst ||| at_ 26 d.kscnt ||| at_ 17 d.pmfirst ||| at_ 9 d.pmcnt
  | _ => 0

/-- A read of an SLC register. -/
def Mach.slcRead (m : Mach) (w : Who) (off : Nat) : Mach × RegOut :=
  if 0x1000 ≤ off ∧ off < 0x3000 then
    let s := (off - 0x1000) / 0x20
    (m, .value (if w.low || w.of s then m.sliceWord s ((off - 0x1000) % 0x20 / 8) else 0))
  else if 0x20000 ≤ off ∧ off < 0x40000 then
    let i := (off - 0x20000) / 8
    (m, .value (if w.low || w.of (i / 64) then ((tget? m.slc.progs i).map Prog.word).getD 0 else 0))
  else if 0x40000 ≤ off ∧ off < 0x40200 then
    (m, .value (if w.low then ((tget? m.slc.progs (16384 + (off - 0x40000) / 8)).map Prog.word).getD 0 else 0))
  else if !w.low then (m, .denied 1)
  else if off = 8 then
    let c := m.slc
    (m, .value (flagAt 63 c.busy ||| at_ 48 c.cmdSlice ||| at_ 44 c.cmdOp ||| at_ 40 c.cmdRes ||| at_ 32 c.cmdPool ||| at_ 0 c.cmdOff))
  else if 0x100 ≤ off ∧ off < 0x140 then
    let k := (off - 0x100) / 8
    (m, .value (at_ 32 (m.poolTotal k) ||| at_ 0 (m.poolTotal k - m.poolHeld k)))
  else if 0x8000 ≤ off ∧ off < 0x10000 then
    let b := tget Bind.reset m.slc.binds ((off - 0x8000) / 8)
    (m, .value (flagAt 63 b.valid ||| flagAt 62 b.oper ||| at_ 48 b.slice ||| at_ 0 b.procid))
  else (m, .value 0)

/-- A write of an SLC register. -/
def Mach.slcWrite (m : Mach) (w : Who) (off : Nat) (v : W64) : Mach × RegOut :=
  let a := slcReg off
  if off = 0 then m.slcCmd w v
  else if 0x8000 ≤ off ∧ off < 0x10000 then m.bindWrite w ((off - 0x8000) / 8) v
  else if off = 8 then m.idleWrite w a v (rsvBits [(63, 63), (55, 40), (35, 32), (7, 0)])
  else if 0x100 ≤ off ∧ off < 0x140 then m.idleWrite w a v 0
  else if 0x1000 ≤ off ∧ off < 0x3000 then
    m.idleWrite w a v (match (off - 0x1000) % 0x20 / 8 with | 0 => rsvBits [(63, 5)] | 1 => 0 | 2 => rsvBits [(63, 9)] | _ => BitVec.allOnes 64)
  else if 0x20000 ≤ off ∧ off < 0x40200 then m.deadWrite w a v (rsvBits [(63, 62), (55, 16)])
  else m.idleWrite w a v (BitVec.allOnes 64)

/-! ## Commands -/

/-- CREATE (R299): a write to SLC_CMD that commands it. -/
def execCreate (w : Who) (sl : Fin 256) (desc : BitVec 40) (s : State) : Host.Outcome State Fault Refusal :=
  s.access fun m => m.slcCmd w (at_ 60 1 ||| at_ 48 sl ||| at_ 0 desc.toNat)

/-- CREATE_COMPLETE (R299). -/
def execCreateComplete (s : State) : Host.Outcome State Fault Refusal := s.act fun m => m.fabric fun m => m.slcCreated

/-- DESTROY (R300). -/
def execDestroy (w : Who) (sl : Fin 256) (s : State) : Host.Outcome State Fault Refusal :=
  s.access fun m => m.slcCmd w (at_ 60 2 ||| at_ 48 sl)

/-- DESTROY_COMPLETE (R300). -/
def execDestroyComplete (s : State) : Host.Outcome State Fault Refusal := s.act fun m => m.fabric fun m => m.slcDestroyed

/-- SLC_BIND_WRITE (R302). -/
def execSlcBindWrite (w : Who) (k : Fin 4096) (v : W64) (s : State) : Host.Outcome State Fault Refusal :=
  s.access fun m => m.bindWrite w k v

end Sys2Proof.Machine
end

