-- ==== Sys2Proof/Machine/Programs.lean ====
section
/-! DEFINITION. Images, program tables and scan profiles (R83 to R85, R294, R488). -/

namespace Sys2Proof.Machine

/-! ## Program tables (R294) -/

/-- Index of program p in the table of an owner. -/
def progKey (owner : Option Nat) (p : Nat) : Nat :=
  match owner with
  | some s => 64 * s + p
  | none => 16384 + p

/-- The entry of program p of an owner. -/
def Mach.prog? (m : Mach) (owner : Option Nat) (p : Nat) : Option Prog :=
  if p < 64 then tget? m.slc.progs (progKey owner p) else none

/-- The area of a table: its first address and its length (R294). -/
def Mach.progArea (m : Mach) (owner : Option Nat) : Nat × Nat :=
  match owner with
  | some s => (unitAddr (m.slice s).desc.pmfirst, (m.slice s).desc.pmcnt * 0x1000000)
  | none => (Config.managerArea / 65536 * 65536, 0x20000000)

/-- Entries of a table, by number. -/
def Mach.progsOf (m : Mach) (owner : Option Nat) : List (Nat × Prog) :=
  (List.range 64).filterMap fun p => (m.prog? owner p).map fun e => (p, e)

/-- The lowest multiple of 64 KiB of an area from which n units of 64 KiB are free. Only the area's start and the ends of entries can be
that address. -/
def Mach.progSpace (m : Mach) (owner : Option Nat) (n : Nat) : Option Nat :=
  let (a, len) := m.progArea owner
  let es := (m.progsOf owner).map fun e => (e.2.base, e.2.base + 65536 * e.2.span)
  let starts := (a :: es.map (·.2)).filter fun x =>
    decide (x + 65536 * n ≤ a + len) && es.all fun e => decide (x + 65536 * n ≤ e.1) || decide (e.2 ≤ x)
  starts.foldl (fun b x => match b with | none => some x | some y => some (Nat.min x y)) none

/-- The lowest free number of a table. -/
def Mach.progFree (m : Mach) (owner : Option Nat) : Option Nat := (List.range 64).find? fun p => (m.prog? owner p).isNone

/-- The ring of the images that an owner's table holds (R85). -/
def ownerRing (owner : Option Nat) : Ring := if owner.isNone then .r1 else .r2

/-! ## Image headers (R83 to R85) -/

/-- Offset of the first bad field of an image header. `ring` is the ring that the loading path expects, `body` the body length it
delivers. -/
def imageBad (h : List Byte) (ring body : Nat) : Option Nat :=
  let f := fun (o n : Nat) => leAt h o n
  let bl := f 8 4
  let ok : List (Nat × Bool) :=
    [(0, f 0 4 == 0x45414B48), (4, f 4 2 == 1), (6, f 6 1 == ring), (7, decide (f 7 1 < 2)),
     (8, bl % 4 == 0 && decide (4 ≤ bl) && decide (bl ≤ 0xFFFFC0) && bl == body),
     (12, f 12 4 % 4 == 0 && decide (f 12 4 < bl)), (0x18, f 0x18 8 == 0)]
  (ok.find? fun x => !x.2).map (·.1)

/-- Does an image carry the seal of a key (R84)? -/
def sealGood (key : BitVec 256) (img : List Byte) : Bool :=
  Alg.hmac256.mac key (img.take 32 ++ img.drop 64) == (img.drop 32).take 32

/-- Measurement of an image: SHA-512 of its header and body (R575). -/
def measure (img : List Byte) : List Byte := Alg.hash .sha512 img

/-- Measurement register n is read: one that disagrees is lost until module reset (R597). -/
def Mach.readMeasure (m : Mach) (n : Nat) : Mach :=
  if m.unsound (.measure n) then
    let m1 := m.meet (.measure n)
    { m1 with dgs := { m1.dgs with mbad := m1.dgs.mbad ++ [n] } }
  else m

/-- Extend measurement register n with 64 bytes (R170, R446): event 616. A register that disagrees with its complement discards the
extension (R597). -/
def Mach.mextend (m0 : Mach) (n : Nat) (x : List Byte) : Mach :=
  let m := m0.readMeasure n
  if m.dgs.mbad.contains n then m
  else
    let old := leBytes 64 (tget 0 m.dgs.mregs n).toNat
    Mach.raise { m with dgs := { m.dgs with mregs := tset m.dgs.mregs n (BitVec.ofNat 512 (leNat (Alg.hash .sha512 (old ++ x)))) } } 616

/-! ## Scan profiles (R488) -/

/-- The scan profile of an image. -/
structure Profile where
  classify : Bool
  sealRec  : Bool
  rstride  : Nat
  keyoff   : Nat
  table    : Nat
  outbufs  : Nat
  sealSlot : Nat
  insnMax  : Nat
  handler  : Nat
deriving DecidableEq, Repr

/-- The profile of a program, if it keeps the rules of R488. -/
def Mach.profileOf (m : Mach) (p : Prog) (run : Bool) : Option Profile :=
  let b := m.rawBytes (p.base + 64) 64
  let f := fun (o n : Nat) => leAt b o n
  let fl := f 5 1
  let cl := fl % 2 == 1
  let se := fl / 2 % 2 == 1
  let rs := f 6 2
  let good := decide (64 ≤ p.bodyLen) && decide (64 ≤ p.entry) && f 0 4 == 0x4E414353 && f 4 1 == 1 && decide (fl < 4) && !(cl && run) &&
    (if cl then rs != 0 && rs % 8 == 0 && 4096 % rs == 0 && decide (f 8 2 + 8 ≤ rs) else rs == 0 && f 8 2 == 0) &&
    decide (1 ≤ f 0xB 1) && decide (f 0xB 1 ≤ 16) && (if se then decide (f 0xC 2 < 2048) else f 0xC 2 == 0) && f 0xE 2 == 0 &&
    f 0x10 4 != 0 && f 0x14 4 % 4 == 0 && decide (f 0x14 4 < p.bodyLen) && f 0x18 40 == 0
  if good then some { classify := cl, sealRec := se, rstride := rs, keyoff := f 8 2, table := f 0xA 1, outbufs := f 0xB 1,
                      sealSlot := f 0xC 2, insnMax := f 0x10 4, handler := f 0x14 4 }
  else none

/-- Classification buffers of a spikelet (R489). -/
def Profile.clsBufs (p : Profile) : Nat := if p.classify then ceilDiv 128 p.rstride else 0

/-- Minimum quota of a scan: g is the grain share of R489. -/
def Profile.need (p : Profile) (g : Nat) : Nat := p.clsBufs + p.outbufs + 1 + g

end Sys2Proof.Machine
end

