-- ==== Sys2Proof/Machine/Accept.lean ====
section
/-! DEFINITION. How a command comes in: its packet, its submission queue, its acceptance and checks, its overlap entry and its data
(R257, R258, R261, R262, R264, R268 to R270; R67 to R69). -/

namespace Sys2Proof.Machine

/-! ## Arrival (R257, R258) -/

/-- Completions posted in the reserved entries of queue pair 0 and not transmitted (R258). -/
def Mach.rsvdUsed (m : Mach) : Nat := (m.hq.cqes.filter fun c => c.rsvd).length

/-- The command at the head of link receive comes into view: an error is counted and signalled when it meets a queue pair that is not
enabled, or one with no free entry. -/
def Mach.judgeHead (m : Mach) : Mach :=
  match m.hq.held with
  | [] => m
  | h :: _ =>
    let v := m.qp h.qp
    if !v.enable then Mach.raise { m with hq := { m.hq with errBadqp := sat 65535 (m.hq.errBadqp + 1) } } 64
    else if v.size ≤ v.outst then Mach.raise { m with hq := { m.hq with errFull := sat 65535 (m.hq.errFull + 1) } } 65
    else m

/-- The command at the head of link receive goes into its submission queue, or, where its queue pair is not enabled, is answered on queue
pair 0; none while there is no room. -/
def Mach.placeHead (m : Mach) : Option Mach :=
  match m.hq.held with
  | [] => none
  | h :: rest =>
    let v := m.qp h.qp
    let m0 : Mach := { m with hq := { m.hq with held := rest } }
    if !m.hq.ready then none
    else if v.enable then
      if v.outst < v.size then some (m0.setQp h.qp { v with sq := v.sq ++ [h.ent], outst := v.outst + 1 }) else none
    else if m.rsvdUsed < 64 then
      let (n, m1) := m0.number false
      some (m1.postCqe { qp := 0, idx := 0, phase := false, asn := n, status := 0x0101, cid := h.ent.cid, qid := h.qp, result := 64,
                         procid := h.ent.procid, tag := none, notice := false, rsvd := true, again := false })
    else none

/-- Place what can be placed, in order. -/
def Mach.drainFor : Nat → Mach → Mach
  | 0, m => m
  | n + 1, m =>
    match m.placeHead with
    | none => m
    | some m1 => Mach.drainFor n m1.judgeHead

/-- Payload of accepted flits of class c leaves the receive space: its credits are released (R233, R70). -/
def Mach.releaseRx (m : Mach) (c : Nat) : Mach :=
  let n := tget 0 m.lnk.rxSpace c
  let m1 : Mach := { m with lnk := { m.lnk with rxSpace := tdel m.lnk.rxSpace c, released := m.lnk.released ++ List.replicate n c } }
  if n = 0 then m1 else m1.toTransit (10 + c) n c

/-- Place what can be placed, in order. Once link receive holds no command, the space of the posted class is free (R67). -/
def Mach.drainHeld (m : Mach) : Mach :=
  let m1 := m.drainFor m.hq.held.length
  if m1.hq.held.isEmpty then m1.releaseRx 0 else m1

/-- A CMD packet arrives (R257, R258): its host command credit is attached (R70). Until HQ_STAT_READY it waits in link receive. -/
def Mach.cmdArrive (m : Mach) (q : Nat) (e : SqEnt) : Mach :=
  let first := m.hq.held.isEmpty && m.hq.ready
  let m1 := m.take 2 1
  let m2 : Mach := { m1 with hq := { m1.hq with held := m1.hq.held ++ [{ qp := q, ent := e }] } }
  (if first then m2.judgeHead else m2).drainHeld

/-- A completion has been transmitted for the first time: its entry is free, and, if it is final, its command's entry, tag and host
command credit go back (R70, R257, R259). -/
def Mach.cqeSent (m : Mach) (c : Cqe) : Mach :=
  let m1 : Mach := { m with hq := { m.hq with cqes := m.hq.cqes.filter fun x => !(x.qp == c.qp && x.idx == c.idx && x.phase == c.phase) } }
  let m2 := m1.setQp c.qp { m1.qp c.qp with cqUsed := (m1.qp c.qp).cqUsed - 1 }
  if c.again then m2.drainHeld
  else if c.notice then
    match c.tag.bind m2.cmd? with
    | none => m2
    | some d => m2.setCmd (c.tag.getD 0) { d with noticeUp := false }
  else
    let m3 := match c.tag with
      | none => m2
      | some t => (m2.fromTransit 1 1 t).setQp c.qp { m2.qp c.qp with outst := (m2.qp c.qp).outst - 1 }
    (m3.give 2 1).drainHeld

/-! ## Fields of a command (R263, R264) -/

/-- LOAD-PROGRAM with UNLOAD set. -/
def SqEnt.unload (e : SqEnt) : Bool := e.opc == 8 && bit (e.param 0) 16

/-- Does the command call data from the host (R264)? -/
def SqEnt.dataIn (e : SqEnt) : Bool := e.opc == 3 || e.opc == 6 || (e.opc == 8 && !e.unload) || e.opc == 0xC || e.opc == 0xD

/-- HOST-IN buffers that a data-in command reserves (R68). -/
def SqEnt.reserve (e : SqEnt) : Nat :=
  let n := ceilDiv e.dlen 4096
  match e.opc with
  | 3 | 0xD => n
  | 6 | 0xC => 1
  | 8 => if e.unload then 0 else Nat.min 16 n
  | _ => 0

/-- Is a bit range of the command used by an opcode? Ranges are [low, low + width) in the 512 bits; `fine` says the namespace is fine. -/
def SqEnt.used (e : SqEnt) (fine : Bool) : List (Nat × Nat) :=
  let base := [(0, 9), (48, 16)]
  let ns := [(16, 4)]
  let range := ns ++ [(64, 64), (128, 32)]
  let out := [(192, 64), (256, 32)]
  let p := fun (i w : Nat) => (320 + 64 * i, w)
  base ++ match e.opc with
    | 0x01 => out
    | 0x02 => range ++ out ++ (if fine then (if e.nblk ≤ 3 then (List.range e.nblk).map fun i => p i 64 else [p 0 64]) else [])
    | 0x03 => range ++ out ++ [(9, 1)]
    | 0x04 => ns
    | 0x05 => range
    | 0x06 => range ++ out ++ [p 0 4]
    | 0x07 => range ++ out ++ [p 0 16, p 1 64]
    | 0x08 => if e.unload then [(320, 6), (336, 1)] else out ++ [(336, 1)]
    | 0x09 => out ++ [p 0 16, p 1 64]
    | 0x0A => [p 0 3]
    | 0x0B => out ++ [p 0 8, p 1 64]
    | 0x0C => out ++ [p 0 11]
    | 0x0D => out ++ [p 0 64]
    | 0x0F => [p 0 25]
    | _ => []

/-- Lowest byte offset of a bit that no field of the opcode uses (R262 check 4). -/
def SqEnt.stray (e : SqEnt) (fine : Bool) : Option Nat :=
  let mask := (e.used fine).foldl (fun (v : BitVec 512) u => v ||| BitVec.ofNat 512 ((2 ^ u.2 - 1) * 2 ^ u.1)) 0
  let bad := e.words &&& ~~~mask
  (List.range 64).find? fun i => bad.extractLsb' (8 * i) 8 != 0

/-- Queue kinds of an opcode (R264): the operator queue, slice queues. -/
def opcQueues (opc : Nat) : Bool × Bool :=
  match opc with
  | 0x02 | 0x03 | 0x04 | 0x05 | 0x06 | 0x07 => (false, true)
  | 0x0A | 0x0D | 0x0E => (true, false)
  | _ => (true, true)

/-- May the opcode be named at all (R264; R578 in limp mode)? -/
def Mach.opcKnown (m : Mach) (opc : Nat) : Bool :=
  if m.fwa.limp then opc == 0x01 || opc == 0x0B || opc == 0x0D || opc == 0x0E else decide (1 ≤ opc) && decide (opc ≤ 0x0F)

/-! ## Check 5 (R262, R264, R489) -/

/-- Does an outstanding UNLOAD name program p of an owner (R294)? -/
def Mach.unloading (m : Mach) (owner : Option Nat) (p : Nat) : Bool :=
  m.hq.cmds.any fun c => c.2.ent.unload && c.2.owner == owner && fld (c.2.ent.param 0) 5 0 == p

/-- Offsets at which a SCAN or RUN fails R489. -/
def Mach.scanBad (m : Mach) (owner : Option Nat) (e : SqEnt) : List Nat :=
  let run := e.opc == 9
  let p := fld (e.param 0) 15 0
  match if m.unloading owner p then none else (m.prog? owner p).bind fun g => m.profileOf g run with
  | none => [40]
  | some f =>
    let ring := ownerRing owner
    let key := !f.sealRec || (m.key f.sealSlot).open_ ring (owner.getD 0) [.general]
    match owner with
    | none => if key then [] else [40]
    | some s =>
      let g := if run then 0 else if m.isFine s e.nsid then 16 else 264
      (if key && (m.slice s).desc.tcbq != 0 then [] else [40]) ++ (if f.need g ≤ (m.slq s).quota then [] else [16])

/-- Logs that a caller may read, ascending (R264, R343, R352, R447, R529, R578). -/
def Mach.logs (m : Mach) (owner : Option Nat) : List Nat :=
  if m.fwa.limp then [0x00, 0x30, 0x50]
  else match owner with
    | none => [0x00, 0x10, 0x30, 0x40, 0x50]
    | some s => [0x00, 0x10] ++ (((List.range 16).filter fun n => (m.nsOf s n).isSome && m.isFine s n).map fun n => 0x20 + n) ++ [0x30]

/-- Offsets of field values outside their ranges (R262 check 5). -/
def Mach.fieldBad (m : Mach) (owner : Option Nat) (e : SqEnt) : List Nat :=
  let bad := fun (o : Nat) (ok : Bool) => if ok then [] else [o]
  let ns := bad 2 ((m.nsOf (owner.getD 0) e.nsid).isSome && owner.isSome)
  let blocks := fun (n : Nat) => bad 16 (decide (1 ≤ e.nblk) && decide (e.nblk ≤ n))
  let whole := bad 16 (e.dlen == 4096 * e.nblk)
  let result := bad 32 (e.dlen % 4096 == 0 && e.dlen != 0)
  match e.opc with
  | 0x01 => bad 32 (e.dlen == 4096)
  | 0x02 => ns ++ blocks 262144 ++ whole
  | 0x03 => ns ++ blocks 2048 ++ whole
  | 0x04 => ns
  | 0x05 => ns ++ blocks (2 ^ 32 - 1)
  | 0x06 =>
    let alg := fld (e.param 0) 3 0
    let q := match owner with
      | some s => bad 16 (decide ((if m.isFine s e.nsid then 17 else 265) ≤ (m.slq s).quota))
      | none => []
    ns ++ blocks (2 ^ 32 - 1) ++ bad 40 (decide (alg ≤ 2)) ++
      bad 32 (if alg = 1 then e.dlen == 64 else if alg ≤ 2 then e.dlen == 32 else e.dlen == 32 || e.dlen == 64) ++ q
  | 0x07 => ns ++ blocks (2 ^ 32 - 1) ++ result ++ m.scanBad owner e
  | 0x08 => if e.unload then [] else bad 32 (decide (68 ≤ e.dlen) && decide (e.dlen ≤ 16777216) && e.dlen % 4 == 0)
  | 0x09 => result ++ m.scanBad owner e
  | 0x0A => bad 40 (decide (fld (e.param 0) 2 0 ≤ 4))
  | 0x0B =>
    let log := fld (e.param 0) 7 0
    bad 32 (decide (1 ≤ e.dlen) && decide (e.dlen ≤ 1048576)) ++ bad 40 ((m.logs owner).contains log) ++
      bad 48 (!(decide (0x20 ≤ log) && decide (log ≤ 0x2F)) || (e.param 1).toNat % 4096 == 0)
  | 0x0C => bad 32 (e.dlen == 40)
  | 0x0D =>
    let o := (e.param 0).toNat
    bad 32 (decide (256 ≤ e.dlen) && decide (e.dlen ≤ 1048576) && e.dlen % 256 == 0) ++ bad 40 (o % 4096 == 0 && decide (o < 16777216))
  | _ => []

/-- The lowest of some offsets. -/
def lowest : List Nat → Option Nat
  | [] => none
  | a :: t => some (t.foldl Nat.min a)

/-- Blocks of namespace n of slice s. -/
def Mach.nsBlocks (m : Mach) (s n : Nat) : Nat := 256 * ((m.nsOf s n).map (·.grains)).getD 0

/-- The quota that a data-in reservation is held to: the slice's, or the whole granary for the operator queue. -/
def Mach.quotaOf (m : Mach) (owner : Option Nat) : Nat :=
  match owner with
  | some s => (m.slq s).quota
  | none => m.bufTotal

/-- The checks of R262 in their order, and R555's: the status and RESULT of the first that fails. -/
def Mach.checkCmd (m : Mach) (q : Nat) (owner : Option Nat) (e : SqEnt) : Option (Nat × Nat) :=
  let s := owner.getD 0
  let opc := e.opc
  if !m.fwa.limp && m.boundOwner e.procid != some owner then some (0x0105, 0)
  else if !m.opcKnown opc then some (0x0100, 0)
  else if !(if q = 0 then (opcQueues opc).1 else (opcQueues opc).2) then some (0x0105, 0)
  else if owner.isSome && m.crippled s && (opc == 7 || opc == 8 || opc == 9) then some (0x0105, 0)
  else match e.stray (owner.isSome && m.isFine s e.nsid) with
    | some o => some (0x0101, o)
    | none =>
      match lowest (m.fieldBad owner e) with
      | some o => some (0x0101, o)
      | none =>
        if ranged opc && decide (m.nsBlocks s e.nsid < e.lba + e.nblk) then some (0x0104, 0)
        else if writes opc && m.sealed s e.nsid then some (0x0302, 0)
        else if m.quotaOf owner < e.reserve then some (0x0101, if opc = 3 then 16 else 32)
        else none

/-! ## Calling data (R268) -/

/-- Request tags in use, rising. -/
def Mach.rtags (m : Mach) : List Nat :=
  let own := m.hq.cmds.flatMap fun c => (c.2.drds.filter fun d => !d.done).map (·.rtag)
  ((m.hq.orphans ++ own).foldl (fun (t : Tab Unit) r => tset t r ()) []).map (·.1)

/-- Bytes that a command calls, and the host address of the first: its data, or the entries of a fine READ (R265). -/
def SqEnt.calls (e : SqEnt) : Nat × Nat := if e.opc = 2 then (8 * e.nblk, (e.param 0).toNat) else (e.dlen, e.haddr)

/-- Answers that a LOAD-PROGRAM may await at once: its data streams through its reserved buffers (R68). -/
def SqEnt.window (e : SqEnt) : Nat := if e.opc = 8 then e.reserve else 65536

/-- Send the requests of a command that can be sent now, in ascending offset order. -/
def Mach.pumpFor : Nat → Nat → Mach → Mach
  | 0, _, m => m
  | n + 1, tag, m =>
    match m.cmd? tag with
    | none => m
    | some c =>
      let (len, addr) := c.ent.calls
      let off := 4096 * c.drds.length
      let used := m.rtags
      if off < len ∧ (c.drds.filter fun d => !d.done).length < c.ent.window ∧ used.length < 65536 then
        let r := nthFree 0 0 used
        let k := Nat.min 4096 (len - off)
        let m1 := m.setCmd tag { c with drds := c.drds ++ [{ rtag := r, off := off, len := k, got := 0, fault := false, done := false }] }
        Mach.pumpFor n tag (m1.send { ptype := 4, len := k, tag := r, procid := c.ent.procid, word1 := w64 (addr + off), data := [],
                                      cqe := none, asn := some c.asn })
      else m

/-- Send the requests of a command that can be sent now. -/
def Mach.pump (m : Mach) (tag : Nat) : Mach :=
  match m.cmd? tag with
  | none => m
  | some c => Mach.pumpFor (ceilDiv c.ent.calls.1 4096) tag m

/-- Data of a command arrives at an offset of its whole data: into its buffers, or, for a LOAD-PROGRAM and a fine READ, into the stream
that the command takes it from. -/
def Mach.takeData (m : Mach) (tag : Nat) (c : Cmd) (off : Nat) (l : List Byte) : Mach :=
  if c.ent.opc = 8 ∨ c.ent.opc = 2 then
    let h := c.hints ++ zeros (off + l.length - c.hints.length)
    m.setCmd tag { c with hints := h.take off ++ l ++ h.drop (off + l.length) }
  else match c.bufs[off / 4096]? with
    | none => m
    | some b => (m.discard (bufAddr b) (bufAddr b + 4096)).putRun (bufAddr b + off % 4096) (l.take (4096 - off % 4096))

/-- A DCPL packet arrives (R238, R268). -/
def Mach.dcplArrive (m : Mach) (rtag status part : Nat) (last : Bool) (l : List Byte) : Mach :=
  if m.hq.orphans.contains rtag then
    if last then { m with hq := { m.hq with orphans := m.hq.orphans.filter (· != rtag) } } else m
  else
    match m.hq.cmds.find? fun c => c.2.drds.any fun d => d.rtag == rtag && !d.done with
    | none => m
    | some (tag, c) =>
      match c.drds.find? fun d => d.rtag == rtag && !d.done with
      | none => m
      | some d =>
        let d1 : Drd := { d with got := d.got + l.length, fault := d.fault || status != 0, done := last }
        let c1 : Cmd := { c with drds := c.drds.map fun x => if x.rtag == rtag && !x.done then d1 else x }
        ((m.setCmd tag c1).takeData tag c1 (d.off + part) (l.take (d.len - part))).pump tag

/-! ## The overlap check (R69, R270, R347) -/

/-- Grains of accepted writes of a namespace that are not mapped yet, with their reserved units (R347). -/
def Mach.reservedUse (m : Mach) (s n : Nat) : Nat :=
  let open_ := m.hq.ovls.filter fun o => o.kind == .write && o.slice == s && o.nsid == n && o.lo < o.hi
  let trim := fun (o : Ovl) => m.hq.cmds.any fun c => c.2.asn == o.asn && c.2.ent.opc == 5
  16384 * ((open_.filter fun o => !trim o).map fun o =>
    let gone := (m.map.work.filter fun g => g.asn == o.asn && g.mapped && !g.fine).length
    (o.hi - 1) / 256 + 1 - o.lo / 256 - gone).sum

/-- Does a WRITE take its namespace's usage above its limit (R347)? -/
def Mach.overLimit (m : Mach) (c : Cmd) : Bool :=
  let s := c.owner.getD 0
  let n := c.ent.nsid
  let lim := tget 0 m.map.nslim (nsKey s n) * 16384
  let own := 16384 * ((c.ent.lba + c.ent.nblk - 1) / 256 + 1 - c.ent.lba / 256)
  c.ent.opc == 3 && lim != 0 && decide (lim < m.nsUse s n + m.reservedUse s n + own)

/-- What follows the checks: data-in commands call their data (R268), the others wait to start. -/
def Mach.afterOverlap (m : Mach) (tag : Nat) : Mach :=
  match m.cmd? tag with
  | none => m
  | some c =>
    let hints := c.ent.opc == 2 && m.isFine (c.owner.getD 0) c.ent.nsid && decide (3 < c.ent.nblk)
    if c.ent.dataIn || hints then (m.setCmd tag { c with phase := .dataIn }).pump tag else m

/-- The overlap check of an accepted command (R69, R270, R347): it takes its entry, if one is free. A probe that meets a row that
disagrees fails the command (R482). -/
def Mach.overlapCheck (m : Mach) (tag : Nat) : Mach :=
  match m.cmd? tag with
  | none => m
  | some c =>
    if !ranged c.ent.opc then m.afterOverlap tag
    else if (m.ledger 3).free = 0 then m
    else match m.hq.ovls.find? fun o => m.unsound (.overlap o.asn) with
    | some o => (m.meet (.overlap o.asn)).finishOpen tag 0x0304
    | none =>
      if m.overLimit c then (m.sealNs (c.owner.getD 0) c.ent.nsid).finishOpen tag 0x0301
      else
        let o : Ovl := { tag := tag, asn := c.asn, kind := if writes c.ent.opc then .write else .guard, slice := c.owner.getD 0,
                         nsid := c.ent.nsid, lo := c.ent.lba, hi := c.ent.lba + c.ent.nblk }
        (Mach.take { m with hq := { m.hq with ovls := m.hq.ovls ++ [o] } } 3 1).afterOverlap tag

/-! ## Acceptance (R261, R262) -/

/-- The power-state entry in progress is abandoned, unless it has passed step 3 (R284). -/
def Mach.abandonEntry (m : Mach) : Mach :=
  match m.hq.entry with
  | none => m
  | some e =>
    if e.shut m.tb then m
    else (Mach.raise { m with hq := { m.hq with entry := none } } 68).finishOpen e.tag 0x0500

/-- What acceptance itself begins: an accepted FIRMWARE-ACTIVATE sets HQ_STAT_ACT and raises event 69 (R282 step 1); an accepted SET-POWER
ends the entry in progress (R284). -/
def Mach.afterChecks (m : Mach) (tag : Nat) (e : SqEnt) : Mach :=
  let m1 := if e.opc = 0xE && !m.fwa.limp then Mach.raise { m with hq := { m.hq with act := true } } 69 else m
  let m2 := if e.opc = 0xA then m1.abandonEntry else m1
  m2.overlapCheck tag

/-- The head of a submission queue is accepted, if its buffers can be reserved (R68, R261). -/
def Mach.acceptHead (m : Mach) (q : Nat) (e : SqEnt) (rest : List SqEnt) : Mach :=
  let v := m.qp q
  let owner := if q = 0 then none else some v.slice
  let above := decide (m.quotaOf owner < e.reserve)
  match if above then some ([], m) else m.allocMany 1 (BitVec.ofNat 16 (0x4000 + q)) owner e.reserve with
  | none => m
  | some (bufs, m0) =>
    let m1 := m0.readBinding e.procid
    let bad := m1.checkCmd q owner e
    let stay := bad.isNone && e.opc == 0xA && fld (e.param 0) 2 0 == m.hq.pstate
    let (tag, m2) := (m1.setQp q { v with sq := rest }).acceptEnt q e owner stay
    let m3 := match m2.cmd? tag with
      | none => m2
      | some c => m2.setCmd tag { c with bufs := bufs }
    match bad with
    | some (st, rs) => if st = 0x0101 then m3.finish tag st rs else m3.finishOpen tag st
    | none => m3.afterChecks tag e

/-- Command fetch serves a queue pair (R69, R261). While an accepted command waits for its overlap entry, fetch stops and that command is
served instead. -/
def Mach.commandAccept (m : Mach) (q : Nat) : Mach :=
  match m.hq.cmds.find? fun c => m.unplaced c.2 with
  | some (tag, _) => m.overlapCheck tag
  | none =>
    let v := m.qp q
    if !m.hq.ready || !v.enable || v.inReset || decide (tagTotal ≤ m.tagsInUse.length) then m
    else match v.sq with
      | [] => m
      | e :: rest => m.acceptHead q e rest

/-! ## The outcome of the data (R268) -/

/-- The first irregularity of a command's answers in offset order: status, RESULT, and whether it is a host fault. -/
def Cmd.irregular (c : Cmd) : Option (Nat × Nat × Bool) :=
  c.drds.findSome? fun d =>
    if d.fault then some (0x0409, d.off, true)
    else if d.got < d.len then some (0x0102, d.off + d.got, false)
    else if d.len < d.got then some (0x0103, c.ent.dlen, false)
    else none

/-- Every answer has arrived: the command decides its outcome. -/
def Mach.dataDone (m : Mach) (tag : Nat) : Mach :=
  match m.cmd? tag with
  | none => m
  | some c =>
    if c.phase ≠ .dataIn || c.drds.length < ceilDiv c.ent.calls.1 4096 || c.drds.any (fun d => !d.done) then m
    else match c.irregular with
      | none => m.setCmd tag { c with phase := .dataReady }
      | some (st, rs, flt) =>
        let m1 := if flt
          then Mach.raise { m with hq := { m.hq with errFlt := sat 65535 (m.hq.errFlt + 1) } } 71
          else Mach.raise { m with hq := { m.hq with errLen := sat 65535 (m.hq.errLen + 1) } } 72
        m1.finish tag st rs

/-! ## Commands -/

/-- HELD_CMD_PLACE (R257). -/
def execHeldCmdPlace (s : State) : Host.Outcome State Fault Refusal := s.act fun m => m.fabric fun m => m.drainHeld

/-- DATA_IN_COMPLETE (R268). -/
def execDataInComplete (tag : Fin 65536) (s : State) : Host.Outcome State Fault Refusal := s.onCommand tag fun m => m.dataDone tag

end Sys2Proof.Machine
end

