-- ==== Sys2Proof/Machine/HostCmds.lean ====
section
/-! DEFINITION. Host commands that the host-queue block serves itself: notices, IDENTIFY, GET-LOG, ABORT, power states, queue resets, and
the HQ registers (R264, R266, R277 to R289). -/

namespace Sys2Proof.Machine

/-- Address of an HQ register. -/
def hqReg (off : Nat) : Nat := 0x200500000 + off

/-! ## Notices (R277, R278) -/

/-- The notice generator posts the next notice of a command, if its span calls for one and none waits to be transmitted. -/
def Mach.notice (m : Mach) (tag : Nat) : Mach :=
  match m.cmd? tag with
  | none => m
  | some c =>
    if c.noticeUp || decide (m.tb < c.resp + 350000) then m
    else
      let m1 := m.setCmd tag { c with notices := c.notices + 1, noticeUp := true, resp := m.tb }
      m1.postCqe { qp := c.qp, idx := 0, phase := false, asn := c.asn, status := 0x0600, cid := c.ent.cid, qid := c.qp,
                   result := (c.notices + 1) % 65536, procid := c.ent.procid, tag := some tag, notice := true, rsvd := false, again := false }

/-! ## IDENTIFY (R266) -/

/-- Value of SYS_ID (R4). -/
def sysId : W64 := 0x4B9600A1

/-- One namespace's 16 bytes. -/
def Mach.identifyNs (m : Mach) (s n : Nat) : List Byte :=
  match m.nsOf s n with
  | none => zeros 16
  | some d => leBytes 1 d.kind ++ leBytes 1 (if m.sealed s n then 1 else 0) ++ zeros 6 ++ leBytes 8 (256 * d.grains)

/-- The 4,096 bytes of IDENTIFY for a caller. -/
def Mach.identifyBytes (m : Mach) (owner : Option Nat) : List Byte :=
  let on := m.hq.qps.filter fun q => q.2.enable
  let mine := match owner with
    | none => on.length
    | some s => (on.filter fun q => q.1 != 0 && q.2.slice == s).length
  leBytes 8 sysId.toNat ++ leBytes 8 m.sys.grade.toNat ++ leBytes 4 0x1B96A0F3 ++ leBytes 1 (if m.fwa.limp then 1 else 0) ++
    leBytes 1 m.hq.pstate ++ leBytes 1 m.lnk.width ++ leBytes 1 m.lnk.domPos ++ leBytes 8 m.fwa.image.toNat ++
    leBytes 8 ((m.fwa.staging.map Staging.image).getD 0).toNat ++ leBytes 2 (owner.getD 0xFFFF) ++ leBytes 2 mine ++
    (List.range 12).map (fun i => Config.serial i) ++ zeros 8 ++
    (match owner with
     | none => zeros 256
     | some s => (List.range 16).flatMap fun n => m.identifyNs s n) ++ zeros 3776

/-- IDENTIFY runs. -/
def Mach.identify (m : Mach) (tag : Nat) : Mach :=
  match m.ready? tag 0x01 with
  | none => m
  | some c => (m.sendData tag c 0 (m.identifyBytes c.owner)).finish tag 0 0

/-! ## GET-LOG (R264) -/

/-- A media-log entry (R352). -/
def MLog.bytes (e : MLog) : List Byte :=
  leBytes 8 e.stamp ++ leBytes 2 e.event ++ leBytes 1 e.slice ++ leBytes 1 e.ns ++ zeros 4 ++ leBytes 16 e.arg

/-- Bytes of a log that is no segment log, for a caller. -/
def Mach.logBytes (m : Mach) (owner : Option Nat) (log : Nat) : List Byte :=
  match log with
  | 0x00 => (m.logs owner).map fun n => BitVec.ofNat 8 n
  | 0x10 => (m.map.log.filter fun e => match owner with | none => true | some s => e.slice == s).flatMap MLog.bytes
  | 0x30 => (List.range 32).flatMap fun i => leBytes 64 (tget 0 m.dgs.mregs i).toNat
  | 0x40 => (List.range 256).flatMap fun i =>
      match tget? m.ecc.chaff i with
      | none => zeros 16
      | some x => leBytes 8 (x.word false).toNat ++ leBytes 8 (x.word true).toNat
  | 0x50 => (m.fwa.bootRec ++ zeros (64 - m.fwa.bootRec.length)) ++ (List.range 8).flatMap fun i => leBytes 8 (tget 0 m.fwa.bootAt (i + 2))
  | _ => []

/-- The n bytes of the segments of namespace k of slice s from an offset that is a multiple of 4,096; none while a segment is not loaded
(R338, R343). -/
def Mach.segBytes (m : Mach) (s k off n : Nat) : Option (List Byte) :=
  let first := off / 8
  let cnt := ceilDiv n 8
  if (List.range (ceilDiv cnt 512)).all fun i => m.loaded true (fineKey s k (first + 512 * i))
  then some (((List.range cnt).flatMap fun i => leBytes 8 (m.sealedEntry s k (first + i)).toNat).take n)
  else none

/-- GET-LOG runs. -/
def Mach.getLogCmd (m : Mach) (tag : Nat) : Mach :=
  match m.ready? tag 0x0B with
  | none => m
  | some c =>
    let log := fld (c.ent.param 0) 7 0
    let off := (c.ent.param 1).toNat
    let s := c.owner.getD 0
    let out := if 0x20 ≤ log ∧ log < 0x30
      then m.segBytes s (log - 0x20) off (Nat.min c.ent.dlen (8 * m.nsBlocks s (log - 0x20) - off))
      else some (((m.logBytes c.owner log).drop off).take c.ent.dlen)
    match out with
    | none => m
    | some l => (m.sendData tag c 0 l).finish tag 0 l.length

/-! ## ABORT (R279) -/

/-- Abort one outstanding command. Gives the tag where the ABORT waits for it, and whether it ran on. -/
def Mach.abortOne (m : Mach) (tag : Nat) : Mach × Bool :=
  match m.cmd? tag with
  | none => (m, false)
  | some c =>
    if !c.started then (m.finishOpen tag 0x0201, false)
    else if Sys2Proof.Machine.staged c.ent.opc then (m.scanStop tag 0x0201, false)
    else (m, true)

/-- May an ABORT of an owner name queue pair t? -/
def Mach.abortMay (m : Mach) (owner : Option Nat) (t : Nat) : Bool :=
  match owner with
  | none => true
  | some s => let d := (m.slice s).desc; decide (d.qpfirst ≤ t) && decide (t < d.qpfirst + d.qpcnt)

/-- ABORT runs: waiting entries are accepted and end; accepted commands end or run on as their condition says. -/
def Mach.abortCmd (m : Mach) (tag : Nat) : Mach :=
  match m.ready? tag 0x0F with
  | none => m
  | some c =>
    let cid := fld (c.ent.param 0) 15 0
    let t := fld (c.ent.param 0) 24 16
    if c.started then m
    else if !m.abortMay c.owner t then m.finishOpen tag 0x0105
    else
      let v := m.qp t
      let hit := fun (e : SqEnt) => e.cid == cid
      let owner := if t = 0 then none else some v.slice
      let tags := (m.hq.cmds.filter fun e => e.1 != tag && e.2.qp == t && hit e.2.ent).map (·.1)
      let wait := v.sq.filter hit
      let m1 := m.setQp t { v with sq := v.sq.filter fun e => !hit e }
      let m2 := wait.foldl (fun m e => let r := m.acceptEnt t e owner false; r.2.finishOpen r.1 0x0201) m1
      let (m3, ran) := tags.foldl (fun (a : Mach × Nat) k => let r := a.1.abortOne k; (r.1, if r.2 then a.2 + 1 else a.2)) (m2, 0)
      let left := tags.filter fun k => (m3.cmd? k).any fun d => d.stopReq.isSome && Sys2Proof.Machine.staged d.ent.opc
      let result := wait.length + tags.length - ran + 65536 * ran
      if left.isEmpty then m3.finish tag 0 result
      else
        let m4 := m3.setCmd tag { c with started := true, phase := .running, verdict := some (0, result) }
        { m4 with hq := { m4.hq with aborts := m4.hq.aborts ++ [(tag, left)] } }

/-! ## Power states (R283, R284, R592, R594) -/

/-- SET-POWER runs: the present state, a shallower state at once, or an entry to a deeper one. `count` holds the state that stood when
the command was accepted. -/
def Mach.setPowerCmd (m : Mach) (tag : Nat) : Mach :=
  match m.ready? tag 0x0A with
  | none => m
  | some c =>
    let target := fld (c.ent.param 0) 2 0
    if c.started then m
    else if target = c.count then m.finish tag 0 target
    else if target < c.count then ((if target = m.hq.pstate then m else m.arrive target)).finish tag 0 target
    else
      let m1 := m.abandonEntry
      let alone := m1.hq.cmds.all fun e => e.1 == tag
      let m2 := m1.setCmd tag { c with started := true, phase := .running }
      { m2 with hq := { m2.hq with entry := some { tag := tag, target := target, at_ := c.at_,
                                                   quiet := if alone then some (Nat.max c.at_ m1.hq.lastDone) else none, closed := false } } }

/-- A quiet window has closed: the state is being prepared (R284 steps 3 and 4). -/
def Mach.quietClose (m : Mach) : Mach :=
  match m.hq.entry with
  | none => m
  | some e => if e.shut m.tb then { m with hq := { m.hq with entry := some { e with closed := true } } } else m

/-- No quiet window has closed by 100 ms after acceptance (R284). -/
def Mach.entryTimeout (m : Mach) : Mach :=
  match m.hq.entry with
  | none => m
  | some e => if e.at_ + 10000000 ≤ m.tb then m.abandonEntry else m

/-- Is the target state prepared (R284 step 4, R592, R594)? P2 and deeper need every die at rest; P4 also needs every write mapped and
every journal record durable, and no stop of media writes. -/
def Mach.prepared (m : Mach) (target : Nat) : Bool :=
  let rest := m.fch.dies.all fun d => d.2.cur.isNone && d.2.susp.isNone
  let durable := m.map.work.all (fun g => g.mapped) && decide (m.map.jsn ≤ m.map.jsnDone) && !m.pwr.stop
  (decide (target < 2) || rest) && (decide (target < 4) || durable)

/-- The state is prepared: SET-POWER completes and the module enters the state; a command that waits returns it at once (R284). -/
def Mach.powerPrepared (m : Mach) : Mach :=
  match m.hq.entry with
  | none => m
  | some e =>
    if e.closed && m.prepared e.target then
      let m1 := (Mach.arrive { m with hq := { m.hq with entry := none } } e.target).raise 67
      let m2 := m1.finish e.tag 0 e.target
      if m2.hq.cmds.isEmpty then m2 else m2.wake
    else m

/-! ## Queue reset (R280, R288) -/

/-- A queue reset of some queue pairs begins. -/
def Mach.beginReset (m : Mach) (qs : List Nat) : Mach :=
  qs.foldl Mach.resetQueue { m with hq := { m.hq with inReset := true } }

/-- Every queue pair that has been configured. -/
def Mach.allQps (m : Mach) : List Nat := m.hq.qps.map (·.1)

/-- A queue reset ends once no command of an affected queue pair is outstanding. -/
def Mach.resetEnd (m : Mach) : Mach :=
  if !m.hq.inReset || m.hq.cmds.any (fun c => (m.qp c.2.qp).inReset) then m
  else
    let qs := m.hq.qps.map fun q => (q.1, { q.2 with inReset := false })
    Mach.raise { m with hq := { m.hq with inReset := false, qps := qs } } 66

/-- A write to HQ_CTL (R288). -/
def Mach.hqCtl (m : Mach) (w : Who) (v : W64) : Mach × RegOut :=
  let op := fld v 63 60
  m.writeReg w (hqReg 8) v (rsvBits [(63, 60), (8, 0)]) w.low (op == 1 || op == 2 || (op == 3 && w.zero)) fun m =>
    if op = 1 then m.beginReset [fld v 8 0]
    else if op = 2 then m.beginReset m.allQps
    else (Mach.judgeHead { m with hq := { m.hq with ready := true } }).drainHeld

/-! ## Queue pairs (R256, R289) -/

/-- Buffers that the queues of a queue pair take (R256). -/
def qpBufs (q depth : Nat) : Nat := ceilDiv (96 * 2 ^ depth + (if q = 0 then 1024 else 0)) 4096

/-- A queue pair is enabled: its buffers are taken, or the enable is refused. -/
def Mach.qpEnable (m : Mach) (q slice depth : Nat) : Mach :=
  let v := m.qp q
  match m.allocMany 0 (BitVec.ofNat 16 (0x4000 + q)) (if q = 0 then none else some slice) (qpBufs q depth) with
  | none => (m.setQp q { v with slice := slice, depth := depth, err := 1 }).raise 73
  | some (l, m1) =>
    (m1.setQp q { Qp.reset with enable := true, slice := slice, depth := depth, bufs := l, inReset := v.inReset }).drainHeld

/-- A queue pair is disabled: its buffers go back. -/
def Mach.qpDisable (m : Mach) (q slice depth : Nat) : Mach :=
  let v := m.qp q
  (m.releaseAll v.bufs).setQp q { v with enable := false, slice := slice, depth := depth, bufs := [] }

/-- Does a write to HQ_QP_q_CFG keep its rules (R289)? -/
def Mach.qpCfgOk (m : Mach) (q : Nat) (v : W64) : Bool :=
  let p := m.qp q
  let s := fld v 55 48
  let d := fld v 3 0
  let n := (m.slice s).desc
  let exists_ := (m.slice s).state == .live && decide (n.qpfirst ≤ q) && decide (q < n.qpfirst + n.qpcnt)
  if p.enable && (s != p.slice || d != p.depth) then false
  else if p.enable && !bit v 63 && p.outst != 0 then false
  else !bit v 63 || (decide (1 ≤ d) && decide (d ≤ 12) && (if q = 0 then s == 0 else exists_))

/-- A write to HQ_QP_q_CFG (R289). -/
def Mach.qpCfg (m : Mach) (w : Who) (q : Nat) (v : W64) : Mach × RegOut :=
  m.writeReg w (hqReg (0x1000 + 0x10 * q)) v (rsvBits [(63, 63), (55, 48), (3, 0)])
    (w.zero || (w.ring == .r1 && q != 0)) (m.qpCfgOk q v) fun m =>
      let p := m.qp q
      let s := fld v 55 48
      let d := fld v 3 0
      if bit v 63 then (if p.enable then m else m.qpEnable q s d)
      else if p.enable then m.qpDisable q s d else m.setQp q { p with slice := s, depth := d }

/-! ## Registers (R287 to R289) -/

/-- HQ_STAT as it reads. -/
def Mach.hqStat (m : Mach) : W64 :=
  let h := m.hq
  at_ 32 (sat 65535 h.cmds.length) ||| flagAt 6 h.inReset ||| flagAt 5 h.act ||| flagAt 4 h.entry.isSome ||| at_ 1 h.pstate ||| flagAt 0 h.ready

/-- A read of an HQ register. -/
def Mach.hqRead (m : Mach) (w : Who) (off : Nat) : Mach × RegOut :=
  let h := m.hq
  if 0x1000 ≤ off ∧ off < 0x3000 then
    let q := (off - 0x1000) / 16
    let v := m.qp q
    let d := (m.slice w.slice).desc
    let own := decide (d.qpfirst ≤ q) && decide (q < d.qpfirst + d.qpcnt)
    let word := if off / 8 % 2 = 0 then flagAt 63 v.enable ||| at_ 48 v.slice ||| at_ 0 v.depth
      else at_ 48 v.outst ||| at_ 32 v.cqUsed ||| at_ 16 v.err ||| flagAt 15 v.phase ||| at_ 0 v.cqIdx
    (m, .value (if w.low || own then word else 0))
  else if !w.low then (m, .denied 1)
  else if off = 0 then (m, .value m.hqStat)
  else if off = 0x10 then
    ({ m with hq := { h with errBadqp := 0, errFull := 0, errFlt := 0, errLen := 0 } },
      .value (at_ 48 h.errBadqp ||| at_ 32 h.errFull ||| at_ 16 h.errFlt ||| at_ 0 h.errLen))
  else (m, .value 0)

/-- A write of an HQ register. -/
def Mach.hqWrite (m : Mach) (w : Who) (off : Nat) (v : W64) : Mach × RegOut :=
  let a := hqReg off
  if off = 8 then m.hqCtl w v
  else if 0x1000 ≤ off ∧ off < 0x3000 then
    if off / 8 % 2 = 0 then m.qpCfg w ((off - 0x1000) / 16) v
    else m.idleWrite w a v (rsvBits [(63, 32), (18, 15), (13, 0)])
  else if off = 0 then m.idleWrite w a v (rsvBits [(47, 32), (6, 0)])
  else if off = 0x10 then m.idleWrite w a v 0
  else m.idleWrite w a v (BitVec.allOnes 64)

/-! ## Commands -/

/-- COMMAND_ACCEPT (R261). A queue pair whose indices disagree with their complement is reset (R597). -/
def execCommandAccept (q : Fin 512) (s : State) : Host.Outcome State Fault Refusal :=
  s.act fun m => m.fabric fun m =>
    if m.unsound (.queue q) then (m.meet (.queue q)).beginReset [q.val] else m.commandAccept q

/-- NOTICE_POST (R277). -/
def execNoticePost (tag : Fin 65536) (s : State) : Host.Outcome State Fault Refusal := s.act fun m => m.fabric fun m => m.notice tag
/-- IDENTIFY (R266). -/
def execIdentify (tag : Fin 65536) (s : State) : Host.Outcome State Fault Refusal := s.onCommand tag fun m => m.identify tag
/-- GET-LOG (R264). -/
def execGetLog (tag : Fin 65536) (s : State) : Host.Outcome State Fault Refusal := s.onCommand tag fun m => m.getLogCmd tag
/-- ABORT (R279). -/
def execAbort (tag : Fin 65536) (s : State) : Host.Outcome State Fault Refusal := s.onCommand tag fun m => m.abortCmd tag
/-- SET-POWER (R284). -/
def execSetPower (tag : Fin 65536) (s : State) : Host.Outcome State Fault Refusal := s.onCommand tag fun m => m.setPowerCmd tag
/-- POWER_QUIET_WINDOW_CLOSE (R284). -/
def execPowerQuietWindowClose (s : State) : Host.Outcome State Fault Refusal := s.act fun m => m.fabric fun m => m.quietClose
/-- POWER_ENTRY_ABANDON (R284). -/
def execPowerEntryAbandon (s : State) : Host.Outcome State Fault Refusal := s.act fun m => m.fabric fun m => m.entryTimeout
/-- POWER_STATE_PREPARED (R284). -/
def execPowerStatePrepared (s : State) : Host.Outcome State Fault Refusal := s.act fun m => m.fabric fun m => m.powerPrepared
/-- RESET_QP (R280): HQ_CTL with RESET-QP. -/
def execResetQp (w : Who) (q : Fin 512) (s : State) : Host.Outcome State Fault Refusal :=
  s.access fun m => m.hqCtl w (at_ 60 1 ||| at_ 0 q)
/-- RESET_ALL (R280): HQ_CTL with RESET-ALL. -/
def execResetAll (w : Who) (s : State) : Host.Outcome State Fault Refusal := s.access fun m => m.hqCtl w (at_ 60 2)
/-- QUEUE_RESET_END (R280). -/
def execQueueResetEnd (s : State) : Host.Outcome State Fault Refusal := s.act fun m => m.fabric fun m => m.resetEnd
/-- HQ_READY (R288): HQ_CTL with READY. -/
def execHqReady (w : Who) (s : State) : Host.Outcome State Fault Refusal := s.access fun m => m.hqCtl w (at_ 60 3)
/-- QP_CFG_WRITE (R289). -/
def execQpCfgWrite (w : Who) (q : Fin 512) (v : W64) (s : State) : Host.Outcome State Fault Refusal := s.access fun m => m.qpCfg w q v

end Sys2Proof.Machine
end

