-- ==== Sys2Proof/Machine/Link.lean ====
section
/-! DEFINITION. The Ziarver link: flits, replay, credits, packets, training, sessions and low power, and the LNK registers (chapter 06). -/

namespace Sys2Proof.Machine

/-- Address of an LNK register. -/
def lnkReg (off : Nat) : Nat := 0x200400000 + off

/-- Sequence number a precedes b (R227). -/
def seqBefore (a b : Nat) : Bool := let d := (b + 4096 - a % 4096) % 4096; decide (1 ≤ d) && decide (d < 2048)

/-- One more of a link count, saturating. -/
def up (n : Nat) : Nat := sat 65535 (n + 1)

/-! ## Packets (R236 to R238) -/

/-- The bytes of a packet: header, payload and padding (R236, R237). -/
def Pkt.bytes (p : Pkt) : List Byte :=
  leBytes 8 (p.len * 2 ^ 48 + p.tag * 2 ^ 32 + p.procid * 2 ^ 8 + p.ptype) ++ leBytes 8 p.word1.toNat ++ p.data ++
    zeros (roundUp p.data.length 8 - p.data.length)

/-- What one DATA flit carries of a class stream: bytes, completions that end in it, commands with DWR bytes in it, the packets left
and the bytes of the first of them already sent. -/
structure Packed where
  bytes : List Byte
  cqs   : List Cqe
  dws   : List Nat
  rest  : List Pkt
  sent  : Nat
deriving DecidableEq, Repr

/-- Fill a flit's payload of n bytes from a class stream. -/
def packFlit : Nat → List Pkt → Nat → Packed
  | n, [], _ => { bytes := zeros n, cqs := [], dws := [], rest := [], sent := 0 }
  | n, p :: t, done =>
    let b := p.bytes.drop done
    let dw := if p.ptype = 3 then p.asn.toList else []
    if n < b.length then { bytes := b.take n, cqs := [], dws := if n = 0 then [] else dw, rest := p :: t, sent := done + n }
    else
      let r := packFlit (n - b.length) t 0
      { r with bytes := b ++ r.bytes, cqs := p.cqe.toList ++ r.cqs, dws := dw ++ r.dws }

/-! ## Flits (R222 to R226) -/

/-- ACK of the flits sent now (R227). -/
def Lnk.ack (l : Lnk) : Nat := (l.rxExp + 4095) % 4096

/-- A flit goes out on the wire: each active lane sends its blocks (R216, R217, R219). -/
def Mach.wireFlit (m : Mach) (f : TxFlit) : Mach :=
  let l := m.lnk
  let n := if l.width = 0 then 0 else 8 / l.width
  let one := fun (t : Tab Lane) (i : Nat) =>
    tmod Lane.reset (fun v => { v with sinceSkip := v.sinceSkip + n, scram := v.scram + n }) t (l.first + i)
  { m with lnk := { l with wire := some f, lanes := (List.range l.width).foldl one l.lanes } }

/-- A HOLD flit with a reason (R224). -/
def Mach.holdFlit (m : Mach) (reason : Nat) : Mach :=
  m.wireFlit { seq := 0, ftype := 2, cinc := 0, ccls := 0, ack := m.lnk.ack, payload := BitVec.ofNat 960 reason, cqs := [], dws := [],
               sent := m.tb }

/-- The 128 bytes of a flit (R222, R223, R225). -/
def TxFlit.bytes (f : TxFlit) : List Byte :=
  let b := leBytes 120 f.payload.toNat ++ leBytes 4 (f.cinc * 2 ^ 29 + f.ccls * 2 ^ 27 + f.ack * 2 ^ 15 + f.seq * 2 ^ 3 + f.ftype)
  b ++ leBytes 4 (crc32c b)

/-- Credits of the class whose oldest unreturned release is the oldest go with the next flit: the class and their number (R233). -/
def Lnk.credits (l : Lnk) : Nat × Nat :=
  match l.released with
  | [] => (0, 0)
  | c :: _ => (c, Nat.min 7 (l.released.filter (· == c)).length)

/-- Forget the first n entries of a value. -/
def dropSome : Nat → Nat → List Nat → List Nat
  | 0, _, l => l
  | _ + 1, _, [] => []
  | n + 1, c, x :: t => if x = c then dropSome n c t else x :: dropSome (n + 1) c t

/-- A new sequenced flit is transmitted for the first time (R226, R233, R72). -/
def Mach.newFlit (m : Mach) (ftype : Nat) (payload : List Byte) (cqs : List Cqe) (dws : List Nat) : Mach :=
  let l := m.lnk
  let (c, n) := l.credits
  let f : TxFlit := { seq := l.txSeq, ftype := ftype, cinc := n, ccls := c, ack := l.ack, payload := BitVec.ofNat 960 (leNat payload),
                      cqs := cqs, dws := dws, sent := m.tb }
  let m1 : Mach := { m with lnk := { l with txSeq := (l.txSeq + 1) % 4096, replay := l.replay ++ [f], released := dropSome n c l.released } }
  let m2 := if n = 0 then m1 else m1.fromTransit (10 + c) n c
  let m3 := [10, 11, 12, 13].foldl Mach.ageMoments m2
  cqs.foldl Mach.cqeSent (m3.wireFlit f)

/-- The next flit that waits to be sent again goes out as it was first sent (R228). -/
def Mach.sendAgain (m : Mach) : Mach :=
  let l := m.lnk
  let i := l.replay.length - l.resend
  match l.replay[i]? with
  | none => m
  | some f =>
    let f1 := { f with sent := m.tb }
    Mach.wireFlit { m with lnk := { l with replay := l.replay.set i f1, resend := l.resend - 1 } } f1

/-- The transmitter sends one flit, of class c where a DATA flit can go (R226, R231). -/
def Mach.transmit (m : Mach) (c : Nat) : Mach :=
  let l := m.lnk
  if l.state ≠ .active then m
  else if 0 < l.resend then m.sendAgain
  else if 512 ≤ l.replay.length then m.holdFlit 0
  else match l.pm with
    | .idle _ => m
    | _ =>
      if !l.lctl.isEmpty then
        let es := l.lctl.take 15
        Mach.newFlit { m with lnk := { l with lctl := l.lctl.drop 15 } } 1
          (es.flatMap (fun e => leBytes 8 e.toNat) ++ zeros (120 - 8 * es.length)) [] []
      else
        let ps := tget [] l.out c
        if ps.isEmpty || tget 0 l.txCrd c == 0 then m.newFlit 0 (zeros 120) [] []
        else
          let p := packFlit 120 ps (tget 0 l.outSent c)
          let m1 : Mach := { m with lnk := { l with out := tset l.out c p.rest, outSent := tset l.outSent c p.sent
                                                    txCrd := tmod 0 (· - 1) l.txCrd c } }
          m1.newFlit (4 + c) p.bytes p.cqs p.dws

/-! ## States (R245, R246) -/

/-- The link enters RECOVERY (R245). -/
def Mach.toRecovery (m : Mach) : Mach :=
  Mach.raise { m with lnk := { m.lnk with state := .recovery, errRecov := up m.lnk.errRecov, pm := .none } } 34

/-- The link drops to DETECT; event 33 when it was ACTIVE. -/
def Mach.toDetect (m : Mach) : Mach :=
  let was := m.lnk.state
  let clear := fun (e : Nat × Lane) => (e.1, { e.2 with locked := false })
  let m1 : Mach := { m with lnk := { m.lnk with state := .detect, pm := .none, lanes := m.lnk.lanes.map clear } }
  if was = .active then m1.raise 33 else m1

/-- Is lane n in the active group? -/
def Lnk.activeLane (l : Lnk) (n : Nat) : Bool := decide (l.first ≤ n) && decide (n < l.first + l.width)

/-- Is a lane offered: not marked bad, and lane 0 alone in limp mode (R246)? -/
def Mach.offers (m : Mach) (n : Nat) : Bool := !(m.lane n).bad && (!m.fwa.limp || n == 0)

/-- The widest aligned group of lanes for which a test holds, lowest first (R246): its width and first lane. -/
def groupOfLanes (p : Nat → Bool) : Option (Nat × Nat) :=
  [8, 4, 2, 1].findSome? fun w =>
    ((List.range (8 / w)).find? fun k => (List.range w).all fun i => p (w * k + i)).map fun k => (w, w * k)

/-- Leave POLL for CONFIG with the locked lanes, or for DETECT where none is locked (R245). -/
def Mach.polled (m : Mach) (lanes : BitVec 8) : Mach :=
  let ok := fun n => lanes.getLsbD n && m.offers n
  if (List.range 8).any ok then
    let m1 := (List.range 8).foldl (fun m n => m.setLane n { m.lane n with locked := ok n }) m
    { m1 with lnk := { m1.lnk with state := .config } }
  else m

/-! ## Acknowledgement (R226 to R229) -/

/-- Use an ACK value: every flit up to it leaves the replay buffer, if it advances the acknowledged position. -/
def Mach.useAck (m : Mach) (a : Nat) : Mach :=
  let l := m.lnk
  let acked := match l.replay with
    | [] => (l.txSeq + 4095) % 4096
    | f :: _ => (f.seq + 4095) % 4096
  if seqBefore acked a then
    let n := (a + 4096 - acked) % 4096
    let rest := l.replay.drop n
    { m with lnk := { l with replay := rest, resend := Nat.min l.resend rest.length, repeats := 0 } }
  else m

/-- A NAK that names e, or a peer's e in CONFIG: everything before e is acknowledged and the rest is sent again (R228, R244). -/
def Mach.resendFrom (m : Mach) (e : Nat) : Mach :=
  let m1 := m.useAck ((e + 4095) % 4096)
  { m1 with lnk := { m1.lnk with resend := m1.lnk.replay.length } }

/-- Send NAK(e) unless one is outstanding (R228). -/
def Mach.sendNak (m : Mach) : Mach :=
  let l := m.lnk
  if l.nakAt.any fun t => m.tb < t + 1000 then m
  else { m with lnk := { l with nakAt := some m.tb, lctl := l.lctl ++ [at_ 8 l.rxExp ||| at_ 0 1] } }

/-- The oldest unacknowledged flit has waited 1,000 ticks (R229). -/
def Mach.replayTimeout (m : Mach) : Mach :=
  let l := m.lnk
  match l.replay with
  | [] => m
  | f :: _ =>
    if l.state = .active ∧ f.sent + 1000 ≤ m.tb ∧ l.resend < l.replay.length then
      let m1 : Mach := { m with lnk := { l with resend := l.replay.length, errReplay := up l.errReplay, repeats := l.repeats + 1 } }
      if l.repeats = 3 then (Mach.raise { m1 with lnk := { m1.lnk with repeats := 0 } } 36).toRecovery else m1
    else m

/-! ## Sessions (R244, R281) -/

/-- Is a command one whose lost DWR ends it with ABORTED-RESET (R281)? -/
def dataOut (opc : Nat) : Bool := opc == 0x01 || opc == 0x02 || opc == 0x07 || opc == 0x09 || opc == 0x0B

/-- A new session discards what the old one had not delivered and begins again at sequence 0 (R244, R281). -/
def Mach.newSession (m : Mach) (grants : W64) : Mach :=
  let l := m.lnk
  let pkts := l.out.flatMap (·.2)
  let lost := l.replay.flatMap (·.dws) ++ (pkts.filter fun p => p.ptype == 3).filterMap (·.asn)
  let flown := l.replay.flatMap (·.cqs)
  let grant := fun (c : Nat) => fld l.grant (16 * c + 15) (16 * c)
  let peer := fun (c : Nat) => fld grants (16 * c + 15) (16 * c)
  let reset := fun (e : Nat × Lane) => (e.1, { e.2 with bad := false, errN := 0, errAt := 0 })
  let m1 : Mach := { m with
    lnk := { l with txSeq := 0, rxExp := 0, replay := [], resend := 0, repeats := 0, nakAt := none, lctl := [], released := [], rxSpace := [],
                    txCrd := (List.range 4).map fun c => (c, peer c), rxBytes := [], rxSkip := [], out := [], outSent := [], newWhy := 0,
                    lanes := l.lanes.map reset }
    hq := { m.hq with orphans := [], cqes := [] } }
  let m2 := (List.range 4).foldl (fun m c => m.setLedger (10 + c) (Ledger.full (grant c))) m1
  let m3 := m.hq.cqes.foldl (fun m c => m.setQp c.qp { m.qp c.qp with cqUsed := (m.qp c.qp).cqUsed - 1 }) m2
  let mark := fun (e : Nat × Cmd) =>
    (e.1, { e.2 with noticeUp := false, lostDwr := e.2.lostDwr || (dataOut e.2.ent.opc && lost.contains e.2.asn) })
  let m4 : Mach := { m3 with hq := { m3.hq with cmds := m3.hq.cmds.map mark } }
  let repost := fun (again : Bool) (m : Mach) (c : Cqe) =>
    if c.notice then m
    else if lost.contains c.asn then m.postCqe { c with status := 0x0200, result := 0, again := again }
    else m.postCqe { c with again := again }
  let m5 := m.hq.cqes.foldl (repost false) (flown.foldl (repost true) m4)
  let m6 := if l.newWhy = 0 then m5 else m5.note 4 l.newWhy
  (m6.raise 42).beginReset m6.allQps

/-- CONFIG ends: width, grants and session stand, and the link is ACTIVE (R244 to R246, R250). -/
def Mach.configured (m : Mach) (peerGood : BitVec 8) (domPos : Nat) (grants : W64) (peerNew : Bool) (peerExp : Nat) : Mach :=
  let l := m.lnk
  if l.state ≠ .config ∧ l.state ≠ .recovery then m
  else match groupOfLanes fun n => m.offers n && (m.lane n).locked && peerGood.getLsbD n with
    | none => m.toDetect
    | some (w, first) =>
      let m1 := if l.newWhy ≠ 0 || peerNew then m.newSession grants else m.resendFrom peerExp
      let fresh := fun (e : Nat × Lane) => (e.1, { e.2 with sinceSkip := 0, scram := 0, idleRx := false })
      let k := m1.lnk
      let m2 : Mach := { m1 with lnk := { k with state := .active, width := w, first := first, domPos := domPos, everUp := true, pm := .none
                                                 lanes := k.lanes.map fresh
                                                 lctl := k.lctl ++ (if m1.refLost then [at_ 0 5] else []) } }
      let m3 := Mach.bootStep (if w < l.width then m2.raise 35 else m2) 7
      if l.state = .config then m3.raise 32 else m3

/-- A header that cannot be framed ends the session: the link trains again with SESSION NEW (R239). -/
def Mach.unframable (m : Mach) : Mach := Mach.toDetect { m with lnk := { m.lnk with newWhy := 2, rxBytes := [], rxSkip := [] } }

/-! ## Received packets (R236 to R243) -/

/-- LNK_STAT as it reads (R254). GOOD shows the lanes that have locked and are not marked bad. -/
def Mach.lnkStat (m : Mach) : W64 :=
  let l := m.lnk
  let good := ((List.range 8).map fun n => if (m.lane n).locked && !(m.lane n).bad then 2 ^ n else 0).sum
  let code := match l.state with
    | .detect => 0 | .poll => 1 | .config => 2 | .active => 3 | .recovery => 4 | .lowpower => 5 | .hold => 6
  at_ 56 good ||| at_ 48 l.domPos ||| at_ 45 code ||| at_ 41 l.width |||
    flagAt 40 (l.state == .active || l.state == .lowpower || l.state == .hold) ||| at_ 12 l.txSeq ||| at_ 0 l.rxExp

/-- LNK_ERR as it reads. -/
def Lnk.errWord (l : Lnk) : W64 := at_ 48 l.errCrc ||| at_ 32 l.errReplay ||| at_ 16 l.errUnk ||| at_ 0 l.errMal
/-- LNK_ERR2 as it reads. -/
def Lnk.err2Word (l : Lnk) : W64 := at_ 48 l.errNocred ||| at_ 32 l.errRecov ||| at_ 16 l.errBlk ||| at_ 0 l.errLctl

/-- PWR_VCORE_STAT as it reads (R29). -/
def Pwr.vcoreStat (p : Pwr) : W64 := at_ 10 p.throt ||| at_ 8 p.req ||| flagAt 2 p.settling ||| at_ 0 p.level

/-- A register that MREQ reads (R242). -/
def Mach.mreqValue (m : Mach) (a : Nat) : Option W64 :=
  if a = 0x200000000 then some sysId
  else if a = 0x200000008 then some (at_ 0 m.sys.grade.toNat)
  else if a = 0x201300000 then some (w64 m.tb)
  else if a = 0x201100048 then some m.pwr.vcoreStat
  else if a = lnkReg 0 then some m.lnkStat
  else if a = lnkReg 0x20 then some m.lnk.errWord
  else if a = lnkReg 0x28 then some m.lnk.err2Word
  else none

/-- MREQ is answered (R242). -/
def Mach.mreq (m : Mach) (tag a : Nat) : Mach :=
  let v := m.mreqValue a
  m.send { ptype := 7, len := 8, tag := tag, procid := 0, word1 := w64 (if v.isSome then 0 else 0x0409), data := leBytes 8 (v.getD 0).toNat,
           cqe := none, asn := none }

/-- Is the header of a packet of class c that has come to the HK96 malformed (R239)? -/
def badHeader (c : Nat) (w0 w1 : W64) : Bool :=
  let len := fld w0 60 48
  let rest := fld w0 63 61 != 0 || fld w0 31 28 != 0 || fld w0 7 4 != 0
  rest || (match fld w0 3 0 with
    | 1 => c != 0 || len != 64 || fld w0 47 32 != 0 || fld w1 63 9 != 0
    | 5 => c != 2 || decide (4096 < len) || fld w1 62 48 != 0 || fld w1 31 13 != 0
    | 6 => c != 3 || len != 0 || fld w1 63 40 != 0
    | _ => true)

/-- A whole packet has come in. -/
def Mach.packetIn (m : Mach) (w0 w1 : W64) (data : List Byte) : Mach :=
  let tag := fld w0 47 32
  match fld w0 3 0 with
  | 1 => m.cmdArrive (fld w1 8 0) { words := BitVec.ofNat 512 (leNat data), procid := fld w0 27 8 }
  | 5 => m.dcplArrive tag (fld w1 47 32) (fld w1 12 0) (bit w1 63) data
  | _ => m.mreq tag (fld w1 39 0)

/-- Take the payload of a DATA flit into the stream of class c (R236, R239). Gives whether the session can go on. -/
def Mach.streamIn (c : Nat) : Nat → Mach → List Byte → Mach
  | 0, m, _ => m
  | n + 1, m, l =>
    let k := m.lnk
    let skip := tget 0 k.rxSkip c
    let part := tget [] k.rxBytes c
    if l.isEmpty then m
    else if skip ≠ 0 then
      let d := Nat.min skip l.length
      Mach.streamIn c n { m with lnk := { k with rxSkip := tset k.rxSkip c (skip - d) } } (l.drop d)
    else if part.isEmpty ∧ leAt l 0 8 = 0 then m
    else
      let len := leAt part 6 2 % 8192
      let want := if part.length < 16 then 16 else 16 + roundUp len 8
      let part1 := part ++ l.take (want - part.length)
      let rest := l.drop (want - part.length)
      let w0 := w64 (leAt part1 0 8)
      let w1 := w64 (leAt part1 8 8)
      let len1 := fld w0 60 48
      let m1 : Mach := { m with lnk := { k with rxBytes := tset k.rxBytes c part1 } }
      let clear : Mach := { m with lnk := { k with rxBytes := tdel k.rxBytes c } }
      if part1.length < 16 then m1
      else if 4096 < len1 then m.unframable
      else if badHeader c w0 w1 then
        let gone := if fld w0 3 0 = 4 ∨ fld w0 3 0 = 6 then 0 else roundUp len1 8
        let m2 : Mach := { clear with lnk := { clear.lnk with rxSkip := tset k.rxSkip c gone, errMal := up k.errMal } }
        Mach.streamIn c n (m2.raise 41) rest
      else if part1.length < 16 + roundUp len1 8 then Mach.streamIn c n m1 rest
      else Mach.streamIn c n (clear.packetIn w0 w1 ((part1.drop 16).take len1)) rest

/-! ## Link-control entries (R230, R247, R248) -/

/-- One LCTL entry. -/
def Mach.lctlEntry (m : Mach) (e : W64) : Mach :=
  let l := m.lnk
  match fld e 7 0 with
  | 1 => m.resendFrom (fld e 19 8)
  | 3 =>
    if l.pm = .asked then
      Mach.holdFlit { m with lnk := { l with pm := .idle m.tb } } 2
    else m
  | 4 => if l.pm = .asked then { m with lnk := { l with pm := .refused m.tb } } else m
  | _ => Mach.raise { m with lnk := { l with errLctl := up l.errLctl } } 44

/-- The entries of an LCTL payload, up to the first END. -/
def Mach.lctlIn (m : Mach) (l : List Byte) : Mach :=
  let es := ((List.range 15).map fun i => w64 (leAt l (8 * i) 8)).takeWhile fun e => fld e 7 0 != 0
  es.foldl Mach.lctlEntry m

/-! ## Receiving a flit (R224, R225, R227, R234) -/

/-- A sequenced flit is accepted. -/
def Mach.acceptFlit (m : Mach) (l : List Byte) (hd ftype : Nat) : Mach :=
  let cls := hd / 2 ^ 27 % 4
  let m1 := m.useAck (hd / 2 ^ 15 % 4096)
  let k := m1.lnk
  let m2 : Mach := { m1 with lnk := { k with rxExp := (k.rxExp + 1) % 4096, nakAt := none, txCrd := tmod 0 (· + hd / 2 ^ 29) k.txCrd cls } }
  if ftype = 1 then m2.lctlIn l
  else if ftype < 4 then m2
  else
    let c := ftype - 4
    let m3 := m2.take (10 + c) 1
    let m4 := Mach.streamIn c 32 { m3 with lnk := { m3.lnk with rxSpace := tmod 0 (· + 1) m3.lnk.rxSpace c } } (l.take 120)
    if c = 0 ∧ !m4.hq.held.isEmpty then m4 else m4.releaseRx c

/-- A flit is received. -/
def Mach.receive (m : Mach) (f : BitVec 1024) : Mach :=
  let l := leBytes 128 f.toNat
  let k := m.lnk
  let hd := leAt l 120 4
  let ftype := hd % 8
  let seq := hd / 8 % 4096
  if k.state ≠ .active then m
  else if crc32c (l.take 124) ≠ leAt l 124 4 then { m with lnk := { k with errCrc := up k.errCrc } }
  else if ftype = 2 then m.useAck (hd / 2 ^ 15 % 4096)
  else if ftype = 3 then Mach.raise { m with lnk := { k with errUnk := up k.errUnk } } 40
  else if seq = k.rxExp then
    if 4 ≤ ftype ∧ (m.ledger (10 + ftype - 4)).free = 0 then
      Mach.sendNak (Mach.raise { m with lnk := { k with errNocred := up k.errNocred } } 43)
    else m.acceptFlit l hd ftype
  else if seqBefore k.rxExp seq then m.sendNak
  else m.useAck (hd / 2 ^ 15 % 4096)

/-! ## Lanes -/

/-- Lane n is marked bad; an active lane takes the link to RECOVERY, the last lane to DETECT (R245, R246). -/
def Mach.markBad (m : Mach) (n : Nat) : Mach :=
  let m1 := m.setLane n { m.lane n with bad := true, errN := 0 }
  if m.lnk.state = .active then (if (List.range 8).any m1.offers then m1.toRecovery else m1.toDetect) else m1

/-- n block errors are stamped on a lane (R215, R246). -/
def Mach.blockErrors (m : Mach) (lane n : Nat) : Mach :=
  let v := m.lane lane
  if m.lnk.state ≠ .active ∨ !m.lnk.activeLane lane ∨ v.idleRx ∨ n = 0 then m
  else
    let fresh := v.errN == 0 || decide (v.errAt + 10000000 ≤ m.tb)
    let v1 := if fresh then { v with errAt := m.tb, errN := n } else { v with errN := v.errN + n }
    let m1 := Mach.setLane { m with lnk := { m.lnk with errBlk := sat 65535 (m.lnk.errBlk + n) } } lane v1
    if 64 ≤ v1.errN then m1.markBad lane else m1

/-- Dense or normal spacing of SKIP blocks (R217, R218). -/
def Mach.skipEvery (m : Mach) : Nat := if m.refLost then 1024 else 4096

/-! ## Low power (R247, R248) -/

/-- May PM-ENTER be sent: state and power state right, nothing unacknowledged either way, nothing to send (R247)? -/
def Mach.pmReady (m : Mach) : Bool :=
  let l := m.lnk
  l.state == .active && decide (2 ≤ m.hq.pstate) && l.replay.isEmpty && l.lctl.isEmpty && l.out.all (fun e => e.2.isEmpty) &&
    (l.wire.all fun f => f.ack == l.ack)

/-- PM-ENTER is sent. -/
def Mach.pmEnter (m : Mach) : Mach := { m with lnk := { m.lnk with pm := .asked, lctl := m.lnk.lctl ++ [at_ 0 2] } }

/-- IDLE-ENTER has been received on some lanes. -/
def Mach.idleEnter (m : Mach) (lanes : BitVec 8) : Mach :=
  match m.lnk.pm with
  | .idle _ =>
    let m1 := (List.range 8).foldl (fun m n => if lanes.getLsbD n then m.setLane n { m.lane n with idleRx := true } else m) m
    let l := m1.lnk
    if (List.range l.width).all fun i => (m1.lane (l.first + i)).idleRx
    then Mach.raise { m1 with lnk := { l with state := .lowpower, pm := .none } } 45 else m1
  | _ => m

/-- Electrical idle ends (R247, R248). -/
def Mach.idleExit (m : Mach) (byPeer : Bool) : Mach :=
  let want := decide (m.hq.pstate < 2) || m.lnk.out.any (fun e => !e.2.isEmpty) || !m.lnk.lctl.isEmpty
  if m.lnk.state = .lowpower ∧ (byPeer || want) then (m.toRecovery).raise 45 else m

/-! ## Registers (R254) -/

/-- A write to LNK_CTL. -/
def Mach.lnkCtl (m : Mach) (w : Who) (v : W64) : Mach × RegOut :=
  let op := fld v 1 0
  m.writeReg w (lnkReg 8) v (rsvBits [(1, 0)]) w.zero (op != 3) fun m =>
    let clear := fun (e : Nat × Lane) => (e.1, { e.2 with bad := false })
    let m1 : Mach := if op = 2 then { m with lnk := { m.lnk with lanes := m.lnk.lanes.map clear } } else m
    if op ≠ 0 ∧ (m.lnk.state = .active ∨ m.lnk.state = .lowpower) then m1.toRecovery else m1

/-- Does a grant keep the bounds of LNK_CRGRANT? -/
def grantOk (v : W64) : Bool :=
  let f := fun (c : Nat) => fld v (16 * c + 15) (16 * c)
  decide (64 ≤ f 0) && decide (8 ≤ f 1) && decide (64 ≤ f 2) && decide (2 ≤ f 3) && decide (f 0 + f 1 + f 2 + f 3 ≤ 3584)

/-- A read of an LNK register. -/
def Mach.lnkRead (m : Mach) (w : Who) (off : Nat) : Mach × RegOut :=
  let l := m.lnk
  if !w.low then (m, .denied 1)
  else if off = 0 then (m, .value m.lnkStat)
  else if off = 0x10 then (m, .value l.grant)
  else if off = 0x18 then (m, .value (((List.range 4).map fun c => at_ (16 * c) (sat 65535 (tget 0 l.txCrd c))).foldl (· ||| ·) 0))
  else if off = 0x20 then ({ m with lnk := { l with errCrc := 0, errReplay := 0, errUnk := 0, errMal := 0 } }, .value l.errWord)
  else if off = 0x28 then ({ m with lnk := { l with errNocred := 0, errRecov := 0, errBlk := 0, errLctl := 0 } }, .value l.err2Word)
  else (m, .value 0)

/-- A write of an LNK register: ring 0. -/
def Mach.lnkWrite (m : Mach) (w : Who) (off : Nat) (v : W64) : Mach × RegOut :=
  let a := lnkReg off
  if off = 8 then m.lnkCtl w v
  else if off = 0x10 then m.writeReg w a v 0 w.zero (grantOk v) fun m => { m with lnk := { m.lnk with grant := v } }
  else if off = 0 then m.deadWrite w a v (rsvBits [(63, 56), (50, 40), (23, 0)])
  else if off = 0x18 ∨ off = 0x20 ∨ off = 0x28 then m.deadWrite w a v 0
  else m.deadWrite w a v (BitVec.allOnes 64)

/-! ## Commands -/

/-- A rule of the link that runs on while the fabric is frozen; a module held in reset has no link. -/
def Mach.onLink (m : Mach) (f : Mach → Mach) : Mach := if m.pwr.hotReset || m.pwr.noVin || m.lands.nresetLow then m else f m

/-- FLIT_RECEIVE (R227). -/
def execFlitReceive (f : BitVec 1024) (s : State) : Host.Outcome State Fault Refusal := s.act fun m => m.fabric fun m => m.receive f
/-- NAK_WINDOW_EXPIRE (R228). -/
def execNakWindowExpire (s : State) : Host.Outcome State Fault Refusal :=
  s.act fun m => m.fabric fun m =>
    if m.lnk.nakAt.any fun t => t + 1000 ≤ m.tb then { m with lnk := { m.lnk with nakAt := none } } else m
/-- REPLAY_TIMEOUT (R229). -/
def execReplayTimeout (s : State) : Host.Outcome State Fault Refusal := s.act fun m => m.fabric fun m => m.replayTimeout
/-- SKIP_SEND (R217, R218). -/
def execSkipSend (lane : Fin 8) (s : State) : Host.Outcome State Fault Refusal :=
  s.act fun m => m.fabric fun m =>
    let v := m.lane lane
    if m.lnk.state = .active ∧ m.lnk.activeLane lane ∧ m.skipEvery ≤ v.sinceSkip
    then m.setLane lane { v with sinceSkip := 0, skips := v.skips + 1 } else m
/-- TS1_DETECT (R245). -/
def execTs1Detect (lane : Fin 8) (s : State) : Host.Outcome State Fault Refusal :=
  s.act fun m => m.onLink fun m =>
    if m.lnk.state = .detect ∧ m.offers lane then { m with lnk := { m.lnk with state := .poll, pollAt := m.tb } } else m
/-- LANES_LOCKED (R245). -/
def execLanesLocked (lanes : BitVec 8) (s : State) : Host.Outcome State Fault Refusal :=
  s.act fun m => m.onLink fun m => if m.lnk.state = .poll then m.polled lanes else m
/-- POLL_TIMEOUT (R245). -/
def execPollTimeout (lanes : BitVec 8) (s : State) : Host.Outcome State Fault Refusal :=
  s.act fun m => m.onLink fun m =>
    if m.lnk.state = .poll ∧ m.lnk.pollAt + 4000000 ≤ m.tb then
      let m1 := m.polled lanes
      if m1.lnk.state = .poll then m1.toDetect else m1
    else m
/-- CONFIG_COMPLETE (R244). -/
def execConfigComplete (peerGood : BitVec 8) (domPos : Fin 8) (grants : W64) (peerNew : Bool) (peerExp : BitVec 12) (s : State) :
    Host.Outcome State Fault Refusal :=
  s.act fun m => m.fabric fun m => m.configured peerGood domPos grants peerNew peerExp.toNat
/-- LANE_BLOCK_LOCK_FAIL (R246). -/
def execLaneBlockLockFail (lane : Fin 8) (s : State) : Host.Outcome State Fault Refusal :=
  s.act fun m => m.fabric fun m => if m.lnk.state = .poll ∨ m.lnk.state = .recovery then m.markBad lane else m
/-- LANE_ERROR_WINDOW (R246). -/
def execLaneErrorWindow (lane : Fin 8) (n : Nat) (s : State) : Host.Outcome State Fault Refusal :=
  s.act fun m => m.fabric fun m => m.blockErrors lane n
/-- LINK_BLOCK_LOCK_LOSS (R245, R248). -/
def execLinkBlockLockLoss (lane : Fin 8) (s : State) : Host.Outcome State Fault Refusal :=
  s.act fun m => m.fabric fun m =>
    if m.lnk.state = .active ∧ m.lnk.activeLane lane ∧ !(m.lane lane).idleRx then m.toRecovery else m
/-- RETRAIN (R245): LNK_CTL with RETRAIN. -/
def execRetrain (w : Who) (s : State) : Host.Outcome State Fault Refusal := s.access fun m => m.lnkCtl w 1
/-- WIDEN (R254): LNK_CTL with WIDEN. -/
def execWiden (w : Who) (s : State) : Host.Outcome State Fault Refusal := s.access fun m => m.lnkCtl w 2
/-- LINK_ACTIVE_TIMEOUT (R250). -/
def execLinkActiveTimeout (s : State) : Host.Outcome State Fault Refusal :=
  s.act fun m => m.fabric fun m =>
    if 30000000 ≤ m.tb ∧ !m.lnk.everUp ∧ !m.lnk.ev46 then Mach.raise { m with lnk := { m.lnk with ev46 := true } } 46 else m
/-- PM_ENTER (R247). -/
def execPmEnter (s : State) : Host.Outcome State Fault Refusal :=
  s.act fun m => m.fabric fun m => if m.pmReady && m.lnk.pm == .none then m.pmEnter else m
/-- PM_REFUSE_RETRY (R247). -/
def execPmRefuseRetry (s : State) : Host.Outcome State Fault Refusal :=
  s.act fun m => m.fabric fun m =>
    match m.lnk.pm with
    | .refused t => if t + 100000 ≤ m.tb && m.pmReady then m.pmEnter else m
    | _ => m
/-- IDLE_ENTER_RECEIVE (R248). -/
def execIdleEnterReceive (lanes : BitVec 8) (s : State) : Host.Outcome State Fault Refusal :=
  s.act fun m => m.fabric fun m => m.idleEnter lanes
/-- LOWPOWER_ENTRY_TIMEOUT (R248). -/
def execLowpowerEntryTimeout (s : State) : Host.Outcome State Fault Refusal :=
  s.act fun m => m.fabric fun m =>
    match m.lnk.pm with
    | .idle t => if t + 1000 ≤ m.tb then m.toRecovery else m
    | _ => m
/-- ELECTRICAL_IDLE_EXIT (R248). -/
def execElectricalIdleExit (byPeer : Bool) (s : State) : Host.Outcome State Fault Refusal :=
  s.act fun m => m.fabric fun m => m.idleExit byPeer
/-- HOLD_WINDOW_TIMEOUT (R249): the link judges this window on the time base while the fabric is frozen. -/
def execHoldWindowTimeout (s : State) : Host.Outcome State Fault Refusal :=
  s.act fun m => m.onLink fun m =>
    if m.lnk.state = .hold ∧ m.lnk.holdAt + 100000000 ≤ m.tb then m.toDetect.raise 39 else m

end Sys2Proof.Machine
end

