-- ==== Sys2Proof/Machine/HostLoads.lean ====
section
/-! DEFINITION. Host commands that load: LOAD-PROGRAM, UNLOAD, KEY-LOAD, FIRMWARE-STAGE and FIRMWARE-ACTIVATE with the firmware's record
log (R85, R282, R294, R454, R569, R580), and the DGS_KEYCTL commands (R456). -/

namespace Sys2Proof.Machine

/-! ## LOAD-PROGRAM (R85, R294) -/

/-- Is there an earlier outstanding LOAD-PROGRAM of the same table (R294)? -/
def Mach.loadBefore (m : Mach) (c : Cmd) : Bool :=
  m.hq.cmds.any fun e => e.2.ent.opc == 8 && e.2.owner == c.owner && asnBefore e.2.asn c.asn

/-- The image is placed, checked in place, and entered in its owner's table; a refused image leaves nothing. -/
def Mach.loadImage (m : Mach) (tag : Nat) (c : Cmd) : Mach :=
  let img := c.hints.take c.ent.dlen
  let span := ceilDiv c.ent.dlen 65536
  let ring := ownerRing c.owner
  match m.progFree c.owner, m.progSpace c.owner span with
  | some p, some a =>
    match imageBad img ring.code (c.ent.dlen - 64) with
    | some o => (m.zero a (a + c.ent.dlen)).finish tag 0x0101 o
    | none =>
      let slot := match c.owner with
        | none => 2
        | some s => (m.slice s).desc.ksfirst
      let m1 := (m.discard a (a + c.ent.dlen)).putRun a img
      let v := m1.key slot
      if !v.cplOk then (((m1.setKey slot { v with valid := false, cplOk := true }).raise 614).alarm 11 (0x200B08000 + 8 * slot)).zero a
          (a + c.ent.dlen) |>.finishOpen tag 0x0304
      else if !(v.valid && v.usage == .seal_ && sealGood v.value img) then (m1.zero a (a + c.ent.dlen)).finishOpen tag 0x0406
      else
        let e : Prog := { ldc := bit (w64 (leAt img 7 1)) 0, span := span, base := a, ring := ring, entry := leAt img 12 4,
                          bodyLen := leAt img 8 4 }
        let m2 : Mach := { m1 with slc := { m1.slc with progs := tset m1.slc.progs (progKey c.owner p) e } }
        (if c.owner.isNone then m2.mextend 2 (measure img) else m2).finish tag 0 p
  | _, _ => m.finish tag 0x0101 32

/-- LOAD-PROGRAM runs, in its table's acceptance order. -/
def Mach.loadCmd (m : Mach) (tag : Nat) : Mach :=
  match m.ready? tag 0x08 with
  | none => m
  | some c =>
    if c.ent.unload || c.phase != .dataReady || m.loadBefore c then m
    else if (c.owner.map m.crippled).getD false then m.finishOpen tag 0x0105
    else m.loadImage tag c

/-- Does a thread control block that is no scan's filter thread run from an image (R294)? -/
def Mach.imageUsed (m : Mach) (g : Prog) : Bool :=
  let filters := m.scans.flatMap fun s => s.2.threads
  m.sch.thrs.any fun t => t.2.state != .free && !filters.contains t.1 && !(t.2.state == .idle && !m.readyHeld t.1) &&
    decide (g.base ≤ pcAddr t.2.entry) && decide (pcAddr t.2.entry < g.base + 64 + g.bodyLen)

/-- Does an earlier outstanding command name program p of an owner? -/
def Mach.namesProg (m : Mach) (c : Cmd) (p : Nat) : Bool :=
  m.hq.cmds.any fun e => (e.2.ent.opc == 7 || e.2.ent.opc == 9) && e.2.owner == c.owner && fld (e.2.ent.param 0) 15 0 == p &&
    asnBefore e.2.asn c.asn

/-- UNLOAD runs once every earlier command that names the program has completed. -/
def Mach.unloadCmd (m : Mach) (tag : Nat) : Mach :=
  match m.ready? tag 0x08 with
  | none => m
  | some c =>
    let p := fld (c.ent.param 0) 5 0
    if !c.ent.unload || m.loadBefore c || m.namesProg c p then m
    else match m.prog? c.owner p with
      | none => m.finish tag 0x0101 40
      | some g =>
        if m.imageUsed g then m.finish tag 0x0101 40
        else Mach.finish { m with slc := { m.slc with progs := tdel m.slc.progs (progKey c.owner p) } } tag 0 p

/-! ## KEY-LOAD (R454, R455) -/

/-- The wrapping key of slice s (R453): from its program key. -/
def Mach.wrapKey (m : Mach) (s : Nat) : BitVec 256 := keyOf (Alg.mac .hmac256 (m.key (m.slice s).desc.ksfirst).value (ascii "HK96SLKW"))

/-- The key under which a KEY-LOAD of an owner into slot k unwraps, and the attributes that the slot takes; none where the target is not
admitted (R450, R454). -/
def Mach.keyTarget (m : Mach) (owner : Option Nat) (k : Nat) : Option (BitVec 256 × Key) :=
  let sys := fun (u : Usage) => ({ Key.reset with valid := true, usage := u, ring := 0, persist := true } : Key)
  match owner with
  | none =>
    if k = 3 then (if (m.key 3).valid then none else some ((m.key 5).value, sys .wrap))
    else if k = 2 then (if (m.key 2).valid || !(m.key 3).valid then none else some ((m.key 3).value, sys .seal_))
    else
      let hit := m.slc.slices.find? fun e => e.2.state == .live && e.2.desc.ksfirst == k
      if (m.key 3).valid then hit.map fun e => ((m.key 3).value, e.2.desc.slot e.1 k (some 0)) else none
  | some s =>
    let d := (m.slice s).desc
    if (m.slice s).state = .live ∧ d.ksfirst + 1 + 2 * d.nscnt ≤ k ∧ k < d.ksfirst + d.kscnt ∧ (m.key d.ksfirst).valid
    then some (m.wrapKey s, d.slot s k (some 0)) else none

/-- KEY-LOAD runs: its data is unwrapped and the slot written, unless the supply holds the write. -/
def Mach.keyLoadCmd (m : Mach) (tag : Nat) : Mach :=
  match m.ready? tag 0x0C with
  | none => m
  | some c =>
    let k := fld (c.ent.param 0) 10 0
    if c.phase ≠ .dataReady then m
    else match m.keyTarget c.owner k with
      | none => m.finishOpen tag 0x0105
      | some (kek, v) =>
        match m.bufData c.bufs with
        | (m1, none) => m1.finishOpen tag 0x0304
        | (m1, some b) =>
          match kwUnwrap kek (b.take 40) with
          | none => (m1.raise 613).finishOpen tag 0x0406
          | some key =>
            if m1.inhibited then
              Mach.setCmd { m1 with dgs := { m1.dgs with held := m1.dgs.held ++ [{ slot := k, key := { v with value := key }, tag := tag }] } }
                tag { c with started := true, phase := .running }
            else ((m1.writeKey k { v with value := key }).raise 612).finish tag 0 0

/-- The held key-slot writes are made once the supply has recovered. -/
def Mach.keysRecover (m : Mach) : Mach :=
  m.dgs.held.foldl (fun m h => ((m.writeKey h.slot h.key).raise 612).finish h.tag 0 0) { m with dgs := { m.dgs with held := [] } }

/-- The held key-slot writes are abandoned (R455, R590). -/
def Mach.keysExpire (m : Mach) : Mach :=
  m.dgs.held.foldl (fun m h => m.finishOpen h.tag 0x0303) { m with dgs := { m.dgs with held := [] } }

/-- A write to DGS_KEYCTL (R456): ring 0. -/
def Mach.keyCtl (m : Mach) (w : Who) (v : W64) : Mach × RegOut :=
  let op := fld v 63 60
  let k := fld v 10 0
  let fixed := k == 0 || k == 1 || k == 5 || k == 6
  let persists := k == 2 || k == 3 || k == 4 || (m.key k).persist || (tget? m.dgs.store k).isSome
  let ok := (op == 1 && !fixed) || (op == 2 && !fixed && persists)
  m.writeReg w 0x200B01000 v (rsvBits [(63, 60), (10, 0)]) w.zero ok fun m =>
    if op = 1 then
      let e := m.key k
      m.writeKey k { e with value := 0, valid := false }
    else match tget? m.dgs.store k with
      | some e => m.writeKey k e
      | none => m.writeKey k { m.key k with value := 0, valid := false }

/-! ## The record log (R569, R570) -/

/-- Array offset of sector i of the record log, i from 0 to 31: sectors 240 to 255 of each bank. -/
def logSector (i : Nat) : Nat := (i / 16) * 0x1000000 + (240 + i % 16) * 65536

/-- Is a range of the array erased throughout: no byte of it listed? -/
def Mach.blank (m : Mach) (off n : Nat) : Bool :=
  let a := fwaBase + off
  !(m.mem.cells.any fun e => decide (a ≤ e.1) && decide (e.1 < a + n)) && !(m.mem.chk.any fun e => decide (a ≤ e.1) && decide (e.1 < a + n))

/-- A record of one unit (R569). -/
def logRecord (kind seq arg : Nat) (payload : List Byte) : List Byte :=
  let head := leBytes 4 0x44435246 ++ leBytes 2 kind ++ leBytes 2 1 ++ leBytes 8 seq ++ leBytes 4 arg ++ zeros 8
  let tail := payload ++ zeros (224 - payload.length)
  head ++ leBytes 4 (crc32c (head ++ zeros 4 ++ tail)) ++ tail

/-- The unit at an array offset as a record of a kind, if it is one that counts: its bytes (R569, R570). -/
def Mach.recordAt (m : Mach) (kind off : Nat) : Option (List Byte) :=
  if m.blank off 256 then none
  else
    let cells := (List.range 256).map fun i => decodeByte (m.byte (fwaBase + off + i)) (m.check (fwaBase + off + i))
    let b := cells.map fun | .clean d | .corrected d => d | .bad => 0
    let plain := (b.take 0x1C) ++ zeros 4 ++ b.drop 0x20
    if leAt b 0 4 = 0x44435246 ∧ leAt b 4 2 = kind ∧ leAt b 6 2 = 1 ∧ leAt b 0x1C 4 = crc32c plain ∧ !(cells.contains .bad)
    then some b else none

/-- Every unit of the record log that is not blank, by its array offset. -/
def Mach.logUnits (m : Mach) : List Nat :=
  (List.range 32).flatMap fun i =>
    if m.blank (logSector i) 65536 then []
    else ((List.range 256).map fun j => logSector i + 256 * j).filter fun o => !m.blank o 256

/-- The newest SELECT record, with its offset (R569, R575). -/
def Mach.newestSelect (m : Mach) : Option (Nat × List Byte) :=
  (m.logUnits.filterMap fun o => (m.recordAt 2 o).map fun b => (o, b)).foldl
    (fun best x => match best with
      | none => some x
      | some y => if leAt y.2 8 8 < leAt x.2 8 8 then some x else some y) none

/-- A unit for one more record: an erased unit of a sector that has been opened, else the first unit after OPEN of a sector opened now. The
sector opened is a blank one, or, when none is blank, one without the newest SELECT, erased first (R570). -/
def Mach.logUnit (m : Mach) : Nat × Mach :=
  let used := (List.range 32).find? fun i => (m.recordAt 1 (logSector i)).isSome && (List.range 256).any fun j => m.blank (logSector i + 256 * j) 256
  match used with
  | some i => (logSector i + 256 * ((List.range 256).find? fun j => m.blank (logSector i + 256 * j) 256).getD 255, m)
  | none =>
    let keep := (m.newestSelect.map fun x => x.1 / 65536).getD 512
    let i := ((List.range 32).find? fun i => m.blank (logSector i) 65536).getD
      (((List.range 32).find? fun i => logSector i / 65536 != keep).getD 0)
    let o := logSector i
    let m1 := m.eraseRange (fwaBase + o) 65536
    let seq := m1.fwa.seq + 1
    let m2 := ({ m1 with fwa := { m1.fwa with seq := seq } } : Mach).programRange (fwaBase + o) (logRecord 1 seq (o / 65536) [])
    (o + 256, m2)

/-- The firmware appends a record of one unit. -/
def Mach.appendRecord (m : Mach) (kind arg : Nat) (payload : List Byte) : Mach :=
  let (o, m1) := m.logUnit
  let seq := m1.fwa.seq + 1
  let m2 := ({ m1 with fwa := { m1.fwa with seq := seq } } : Mach).programRange (fwaBase + o) (logRecord kind seq arg payload)
  (m2.discard (fwaBase + o) (fwaBase + o + 256)).raise 768

/-- Array address of a bank. -/
def bankBase (b : Nat) : Nat := fwaBase + 0x1000000 * b

/-- IMAGE_ID of the image in a bank. -/
def Mach.bankImage (m : Mach) (b : Nat) : W64 := w64 (m.peekLe (bankBase b + 0x10) 8)

/-- A SELECT record: bank, state and fallback (R569). -/
def Mach.appendSelect (m : Mach) (bank state fallback : Nat) : Mach :=
  m.appendRecord 2 0 (leBytes 1 bank ++ leBytes 1 state ++ leBytes 1 fallback ++ zeros 5 ++ leBytes 8 (m.bankImage bank).toNat)

/-- The bytes of the image in a bank: header and body, or the header alone where its BODY_LEN breaks the rules (R575). -/
def Mach.bankBytes (m : Mach) (b : Nat) : List Byte :=
  let n := m.peekLe (bankBase b + 8) 4
  m.rawBytes (bankBase b) (if n % 4 = 0 ∧ 4 ≤ n ∧ n ≤ 0xEFFFC0 then 64 + n else 64)

/-- Does the image of a bank pass its check under R84 with slot 1 and RING 0? An uncorrectable byte fails it. -/
def Mach.bankGood (m : Mach) (b : Nat) : Bool :=
  let img := m.bankBytes b
  let bad := m.mem.chk.any fun e => decide (bankBase b ≤ e.1) && decide (e.1 < bankBase b + img.length) && decodeByte (m.byte e.1) e.2 == .bad
  (imageBad img 0 (leAt img 8 4)).isNone && decide (leAt img 8 4 ≤ 0xEFFFC0) && !bad && sealGood (m.key 1).value img

/-! ## FIRMWARE-STAGE (R580) -/

/-- Is there an earlier outstanding FIRMWARE-STAGE or FIRMWARE-ACTIVATE (R580)? -/
def Mach.firmwareBefore (m : Mach) (c : Cmd) : Bool :=
  m.hq.cmds.any fun e => (e.2.ent.opc == 0xD || e.2.ent.opc == 0xE) && asnBefore e.2.asn c.asn

/-- Program one unit of a staging, erasing its sector first where the staging has not done so. -/
def Mach.stageUnit (bank : Nat) (data : List Byte) (off : Nat) (m : Mach) (i : Nat) : Mach :=
  let o := off + 256 * i
  let st := m.fwa.staging.getD { sectors := [], units := [], image := 0 }
  let sec := o / 65536
  let fresh := !st.sectors.contains sec
  let a := bankBase bank + o
  let m1 := if fresh then ((m.discard (bankBase bank + 65536 * sec) (bankBase bank + 65536 * sec + 65536)).eraseRange (bankBase bank + 65536 * sec) 65536).raise 768 else m
  let m2 := ((m1.programRange a ((data.drop (256 * i)).take 256)).discard a (a + 256)).raise 768
  let img := if o = 0 then w64 (leAt data 0x10 8) else st.image
  { m2 with fwa := { m2.fwa with staging := some { sectors := if fresh then st.sectors ++ [sec] else st.sectors,
                                                   units := st.units ++ [o / 256], image := img } } }

/-- A unit fails verify after three attempts, each an erase of its sector and a program: the staging ends, and what the sector then holds
is left open. -/
def Mach.stageFail (bank off : Nat) (m : Mach) (i : Nat) : Mach :=
  let lo := bankBase bank + (off + 256 * i) / 65536 * 65536
  let attempt := fun (m : Mach) => (Mach.raise { m.raise 768 with fwa := { m.fwa with vfail := up16 m.fwa.vfail } } 769).raise 768
  let m1 := attempt (attempt (attempt ((m.discard lo (lo + 65536)).blur lo 65536)))
  { m1 with fwa := { m1.fwa with staging := none } }

/-- FIRMWARE-STAGE runs, in acceptance order, while nothing holds array writes. -/
def Mach.stageCmd (m : Mach) (tag : Nat) (bad : Option Nat) : Mach :=
  match m.ready? tag 0x0D with
  | none => m
  | some c =>
    let off := (c.ent.param 0).toNat
    let n := c.ent.dlen / 256
    if c.phase ≠ .dataReady || m.firmwareBefore c || m.inhibited || m.fwa.op.isSome || m.fwa.susp.isSome then m
    else
      let m0 : Mach := if off = 0 then { m with fwa := { m.fwa with staging := some { sectors := [], units := [], image := 0 } } } else m
      let units := (m0.fwa.staging.map (fun s : Staging => s.units)).getD []
      if m0.fwa.staging.isNone ∨ 0xF00000 < off + c.ent.dlen ∨ (List.range n).any (fun i => units.contains (off / 256 + i))
      then m0.finish tag 0x0101 40
      else match m0.bufData c.bufs with
        | (m1, none) => m1.finishOpen tag 0x0304
        | (m1, some b) =>
          let bank := 1 - m.fwa.bank
          match bad.filter fun i => decide (i < n) with
          | none => ((List.range n).foldl (Mach.stageUnit bank b off) m1).finish tag 0 0
          | some i => (Mach.stageFail bank off ((List.range i).foldl (Mach.stageUnit bank b off) m1) i).finish tag 0x0300
              (0x1000000 * bank + off + 256 * i)

/-! ## FIRMWARE-ACTIVATE (R282, R578, R580) -/

/-- Does the staged image pass step 2: every sector of header and body staged, and the seal good? -/
def Mach.stagedGood (m : Mach) : Bool :=
  match m.fwa.staging with
  | none => false
  | some st =>
    let b := 1 - m.fwa.bank
    (List.range (ceilDiv (m.bankBytes b).length 65536)).all (fun s => st.sectors.contains s) && m.bankGood b

/-- The activation ends: HQ_STAT_ACT clears, event 70 (R282). -/
def Mach.actEnd (m : Mach) (tag status result : Nat) : Mach :=
  (Mach.raise { m with hq := { m.hq with act := false }, fwa := { m.fwa with act := none, trial := false } } 70).finish tag status result

/-- The culms restart: every ring-0 thread ends with the image it ran (R282 step 5). -/
def Mach.restartCulms (m : Mach) : Mach :=
  let m1 := (m.sch.thrs.filter fun t => t.2.ring == .r0 && !t.2.ofSlice && (t.2.state == .ready || t.2.state == .running || t.2.state == .waiting)).foldl
    (fun m t => ((if t.2.state = .running then m.freeCore t.2.core else m.unready t.1)).stopQuiet t.1) m
  { m1 with sch := { m1.sch with held := m1.sch.held.filter fun h => match h with | .ready k => (m1.thr k).ring != .r0 | _ => true } }

/-- The culms restart on the image of a bank, which is measured into mreg3. -/
def Mach.runBank (m : Mach) (b : Nat) : Mach :=
  let m1 := (m.restartCulms).mextend 3 (measure (m.bankBytes b))
  { m1 with fwa := { m1.fwa with bank := b, image := m1.bankImage b, staging := none } }

/-- The new image failed its check, or no CONFIRM came: the culms restart on the fallback bank (R580). -/
def Mach.fallBack (m : Mach) (a : Act) (result : Nat) : Mach :=
  (((m.runBank a.fallback).appendSelect a.fallback 1 a.fallback).raise 776).actEnd a.tag 0x0406 result

/-- Step 2 of an activation, and what follows at once (R282 steps 2 and 3; in limp mode R578). -/
def Mach.activateCheck (m : Mach) (tag : Nat) (c : Cmd) : Mach :=
  let b := 1 - m.fwa.bank
  if !m.stagedGood then Mach.finish { m with hq := { m.hq with act := false } } tag 0x0406 1
  else if m.fwa.limp then
    let m1 := m.appendSelect b 1 b
    Mach.finish { m1 with fwa := { m1.fwa with act := some { tag := tag, phase := .leaving, bank := b, fallback := b } } } tag 0
      (fld (m.bankImage b) 47 0)
  else
    let m1 := m.setCmd tag { c with started := true, phase := .running }
    let m2 : Mach := { m1 with fwa := { m1.fwa with act := some { tag := tag, phase := .drain, bank := b, fallback := m.fwa.bank } } }
    ((m2.hq.cmds.filter fun e => e.2.started && Sys2Proof.Machine.staged e.2.ent.opc).map (·.1)).foldl (fun m t => m.scanStop t 0x0200) m2

/-- FIRMWARE-ACTIVATE runs: its check first; issued again, steps 4 and 5 once every started command has ended and the journal is
durable. -/
def Mach.activateCmd (m : Mach) (tag : Nat) : Mach :=
  match m.fwa.act with
  | none =>
    (match m.ready? tag 0x0E with
     | none => m
     | some c => if m.firmwareBefore c || c.started || m.inhibited then m else m.activateCheck tag c)
  | some a =>
    if a.tag ≠ tag ∨ a.phase ≠ .drain ∨ m.hq.cmds.any (fun e => e.1 != tag && e.2.started) then m
    else if m.map.jsnDone < m.map.jsn then m.closeJournal
    else if m.inhibited then m
    else
      let m1 := (m.appendSelect a.bank 2 a.fallback).runBank a.bank
      if m1.bankGood a.bank then
        { m1 with fwa := { m1.fwa with act := some { a with phase := .trial m.tb }, trial := true } }
      else m1.fallBack a 2

/-- Is the activation window still open (R580)? -/
def Mach.trialOpen (m : Mach) : Bool :=
  m.fwa.act.any fun a => match a.phase with | .trial s => decide (m.tb < s + 2000000) | _ => false

/-- No CONFIRM was stamped inside the activation window (R580). -/
def Mach.actExpire (m : Mach) : Mach :=
  match m.fwa.act with
  | none => m
  | some a =>
    match a.phase with
    | .trial s => if s + 2000000 ≤ m.tb then m.fallBack a 3 else m
    | _ => m

/-- CONFIRM inside the window (R580): the new firmware has appended its SELECT. -/
def Mach.actConfirm (m : Mach) : Mach :=
  match m.fwa.act with
  | none => { m with fwa := { m.fwa with trial := false } }
  | some a => (m.appendSelect a.bank 1 a.bank).actEnd a.tag 0 (fld m.fwa.image 47 0)

/-- A write to FWA_BOOT_CTL (R577, R580, R581): ring 0. -/
def Mach.bootCtl (m : Mach) (w : Who) (v : W64) : Mach × RegOut :=
  let op := fld v 63 60
  m.writeReg w (fwaReg 0x38) v (rsvBits [(63, 60)]) w.zero ((op == 1 && m.fwa.trial && m.trialOpen) || op == 2) fun m =>
    if op = 1 then m.actConfirm else if m.fwa.limp then m else m.enterLimp 5

/-! ## Commands -/

/-- LOAD-PROGRAM (R294). -/
def execLoadProgram (tag : Fin 65536) (s : State) : Host.Outcome State Fault Refusal := s.onCommand tag fun m => m.loadCmd tag
/-- LOAD-PROGRAM with UNLOAD (R294). -/
def execUnloadProgram (tag : Fin 65536) (s : State) : Host.Outcome State Fault Refusal := s.onCommand tag fun m => m.unloadCmd tag
/-- KEY-LOAD (R454). -/
def execKeyLoad (tag : Fin 65536) (s : State) : Host.Outcome State Fault Refusal := s.onCommand tag fun m => m.keyLoadCmd tag
/-- KEY_ERASE (R456): DGS_KEYCTL with ERASE. -/
def execKeyErase (w : Who) (slot : Fin 2048) (s : State) : Host.Outcome State Fault Refusal :=
  s.access fun m => m.keyCtl w (at_ 60 1 ||| at_ 0 slot)
/-- KEY_RELOAD (R456): DGS_KEYCTL with RELOAD. -/
def execKeyReload (w : Who) (slot : Fin 2048) (s : State) : Host.Outcome State Fault Refusal :=
  s.access fun m => m.keyCtl w (at_ 60 2 ||| at_ 0 slot)
/-- FIRMWARE-STAGE (R580). -/
def execFirmwareStage (tag : Fin 65536) (bad : Option Nat) (s : State) : Host.Outcome State Fault Refusal :=
  s.onCommand tag fun m => m.stageCmd tag bad
/-- FIRMWARE-ACTIVATE (R282, R580). -/
def execFirmwareActivate (tag : Fin 65536) (s : State) : Host.Outcome State Fault Refusal := s.onCommand tag fun m => m.activateCmd tag
/-- CONFIRM (R580): FWA_BOOT_CTL with CONFIRM. -/
def execConfirm (w : Who) (s : State) : Host.Outcome State Fault Refusal := s.access fun m => m.bootCtl w (at_ 60 1)
/-- ACTIVATION_WINDOW_EXPIRE (R580). -/
def execActivationWindowExpire (s : State) : Host.Outcome State Fault Refusal := s.act fun m => m.fabric fun m => m.actExpire
/-- FWA_LIMP (R577): FWA_BOOT_CTL with LIMP. -/
def execFwaLimp (w : Who) (s : State) : Host.Outcome State Fault Refusal := s.access fun m => m.bootCtl w (at_ 60 2)

end Sys2Proof.Machine
end

