-- ==== Sys2Proof/Machine/Jobs.lean ====
section
/-! DEFINITION. Engine jobs: descriptors and how they are judged, JOB.SUBMIT, JOB.WAIT and JOB.TEST, what an engine reaches in memory,
and the completion of a job (R160 to R165, R638, R102). -/

namespace Sys2Proof.Machine

/-! ## Descriptors -/

/-- The value of n bytes at an offset of a job's descriptor. -/
def Job.f (j : Job) (o n : Nat) : Nat := leAt j.desc o n
/-- FUNCTION. -/
def Job.fn (j : Job) : Nat := j.f 0 2
/-- Does the job raise its completion event (R162)? -/
def Job.event (j : Job) : Bool := j.f 3 1 % 2 == 1

/-- The first rule of a list that fails: each with the offset at which it is reported. -/
def firstBad (l : List (Nat × Bool)) : Option Nat := (l.find? fun r => !r.2).map (·.1)

/-- The rules of the common header (R162) for an engine with functions 1 to `fns` and a descriptor of `len` bytes. -/
def Job.headRules (j : Job) (fns len : Nat) : List (Nat × Bool) :=
  [(0, decide (1 ≤ j.fn ∧ j.fn ≤ fns)), (2, decide (j.f 2 1 < 16)), (3, decide (j.f 3 1 < 2)), (4, j.f 4 4 == len), (8, j.f 8 8 == 0)]

/-- Does [a, a + n) lie wholly in the granary or wholly in DRAM (R97)? -/
def inOne (a n : Nat) : Bool :=
  (decide (granaryBase ≤ a) && decide (a + n ≤ granaryBase + 0x3000000)) ||
  (decide (dramBase ≤ a) && decide (a + n ≤ dramBase + 4 * rangeSize))

/-- Are two ranges disjoint? -/
def apart (a n b k : Nat) : Bool := n == 0 || k == 0 || decide (a + n ≤ b) || decide (b + k ≤ a)

/-- Judge a Groat descriptor (R396, R408, R409, R638). -/
def Job.groatBad (j : Job) : Option Nat :=
  let c := j.fn == 1
  let out := j.fn != 3
  let g := GParam.of (j.f 0x28 1) (j.f 0x2A 2) (j.f 0x2C 2)
  let src := j.f 0x10 8
  let dst := j.f 0x18 8
  let slen := j.f 0x20 4
  let dlim := j.f 0x24 4
  firstBad (j.headRules 3 48 ++
    [(0x18, out || dst == 0),
     (0x20, if c then decide (1 ≤ slen ∧ slen ≤ 16777216) else decide (28 ≤ slen ∧ slen ≤ 16785440)),
     (0x24, if c then decide (1 ≤ dlim ∧ dlim ≤ 16785440) else if out then decide (1 ≤ dlim ∧ dlim ≤ 16777216) else dlim == 0),
     (0x28, if c then decide (j.f 0x28 1 < 32 ∧ g.pred ≤ 4) else j.f 0x28 1 == 0),
     (0x29, j.f 0x29 1 == 0),
     (0x2A, if c then decide (g.stride ≤ 4096) else g.stride == 0),
     (0x2C, c || g.row == 0),
     (0x2E, j.f 0x2E 2 == 0)] ++
    [(0x10, inOne src slen),
     (0x10, !out || apart src slen dst dlim),
     (0x18, !out || inOne dst dlim),
     (0x28, !c || (g.badAt (j.f 0x28 1) 0 0 0).isNone)])

/-- Buffers that a GCM message needs (R434). -/
def Job.qbufsNeeded (j : Job) : Nat := ceilDiv (j.f 0x20 4) 4096

/-- The slice that a GCM decryption's buffers are charged to (R434). -/
def Job.qcharge (j : Job) : Option Nat :=
  if j.ring = .r2 then some j.slice else if j.f 0x45 1 % 2 = 1 then some (j.f 0x46 1) else none

/-- Judge a cipher descriptor (R428, R429, R431, R435, R638). -/
def Mach.cipherBad (m : Mach) (j : Job) : Option Nat :=
  let x := decide (j.fn ≤ 2)
  let ge := j.fn == 3
  let gd := j.fn == 4
  let src := j.f 0x10 8
  let dst := j.f 0x18 8
  let len := j.f 0x20 4
  let du := j.f 0x26 2
  let aad := j.f 0x38 8
  let aadlen := j.f 0x40 4
  let oc := j.f 0x44 1
  let tag := j.f 0x48 8
  let dlen := if gd then 2 * j.qbufsNeeded else len
  let live := fun (s : Nat) => (m.slice s).state == .live
  firstBad (j.headRules 4 80 ++
    [(0x18, !gd || dst % 2 == 0),
     (0x20, if x then decide (16 ≤ len ∧ len ≤ 16777216) else decide (len ≤ 4194304)),
     (0x24, decide (j.f 0x24 2 < 2048)),
     (0x26, if x then decide (16 ≤ du ∧ du ≤ 4096 ∧ du % 16 = 0) else du == 0),
     (0x28, x || j.f 0x34 4 == 0),
     (0x38, !x || aad == 0),
     (0x40, if x then aadlen == 0 else decide (aadlen ≤ 65536)),
     (0x44, if gd then oc == 5 || ((oc == 2 || oc == 4) && j.ring != .r2) else oc == 0),
     (0x45, if gd then decide (j.f 0x45 1 < 2) && (j.ring != .r2 || j.f 0x45 1 == 0) else j.f 0x45 1 == 0),
     (0x46, gd || j.f 0x46 1 == 0),
     (0x47, j.f 0x47 1 == 0),
     (0x48, if x then tag == 0 else tag % 8 == 0 && inOne tag 16)] ++
    [(0x10, if len = 0 then src == 0 else inOne src len),
     (0x10, if gd then apart src len dst dlen else src == dst || apart src len dst len),
     (0x18, if len = 0 then dst == 0 else inOne dst dlen),
     (0x18, x || (apart aad aadlen dst dlen && apart tag 16 dst dlen)),
     (0x20, !x || len % du == 0 || decide (16 ≤ len % du)),
     (0x20, !gd || (match j.qcharge with
        | some s => !live s || decide (j.qbufsNeeded ≤ (m.slq s).quota)
        | none => true)),
     (0x38, x || aadlen == 0 || inOne aad aadlen),
     (0x38, !ge || apart aad aadlen tag 16),
     (0x45, !gd || (if j.f 0x45 1 % 2 = 1 then live (j.f 0x46 1) else j.f 0x46 1 == 0))])

/-- Bytes of one item of a winnow job's input (R472). -/
def Job.itemSize (j : Job) : Nat := match j.fn with | 1 => 8 | 2 => 32 | 3 => 16 | _ => 0

/-- Judge a winnow descriptor (R471, R472, R638). -/
def Job.winnowBad (j : Job) : Option Nat :=
  let search := j.fn == 1
  let clear := j.fn == 4
  let src := j.f 0x10 8
  let dst := j.f 0x18 8
  let n := j.f 0x20 4
  firstBad (j.headRules 4 48 ++
    [(0x10, if clear then src == 0 else src % 8 == 0),
     (0x18, if search then dst % 8 == 0 else dst == 0),
     (0x20, if clear then n == 0 else decide (1 ≤ n ∧ n ≤ 65536)),
     (0x24, j.fn != 2 || j.f 0x24 1 == 0),
     (0x26, j.f 0x26 10 == 0)] ++
    [(0x10, clear || inOne src (n * j.itemSize)),
     (0x10, !search || src == dst || apart src (8 * n) dst (8 * n)),
     (0x18, !search || inOne dst (8 * n))])

/-- Judge the descriptor of a job at a port: the offset that R638 reports, none when every rule holds. -/
def Mach.jobBad (m : Mach) (p : Nat) (j : Job) : Option Nat :=
  if p / 16 = 1 then j.groatBad else if p / 16 = 2 then m.cipherBad j else j.winnowBad

/-- The ranges that a descriptor names, with the permission the engine needs (R102, R429, R472). -/
def Job.ranges (j : Job) (p : Nat) : List (Need × Nat × Nat) :=
  let src := j.f 0x10 8
  let dst := j.f 0x18 8
  let len := j.f 0x20 4
  if p / 16 = 1 then [(.read, src, len), (.write, dst, j.f 0x24 4)]
  else if p / 16 = 2 then
    match j.fn with
    | 3 => [(.read, src, len), (.write, dst, len), (.read, j.f 0x38 8, j.f 0x40 4), (.write, j.f 0x48 8, 16)]
    | 4 => [(.read, src, len), (.write, dst, 2 * j.qbufsNeeded), (.read, j.f 0x38 8, j.f 0x40 4), (.read, j.f 0x48 8, 16)]
    | _ => [(.read, src, len), (.write, dst, len)]
  else [(.read, src, len * j.itemSize), (.write, dst, if j.fn = 1 then 8 * len else 0)]

/-- The first range that fails the checks of R102, with its detail and address. -/
def Mach.rangesBad (m : Mach) (k p : Nat) (j : Job) : Option (Nat × Nat) :=
  (j.ranges p).findSome? fun r => m.windowRange k r.1 r.2.1 r.2.2

/-! ## Submission (R161 to R164) -/

/-- Is it a port of R161? -/
def isPort (p : Nat) : Bool := (p / 16 == 1 && decide (p % 16 < 8)) || (p / 16 == 2 && decide (p % 16 < 4)) || p == 0x30

/-- Is a port out of service: set offline, or in limp mode, which has no engine (R421, R441, R578)? -/
def Mach.portOff (m : Mach) (p : Nat) : Bool := (m.engine p).offline || m.fwa.limp

/-- Handle of a job (R164). -/
def jobHandle (p ctx num : Nat) : W64 := at_ 48 p ||| at_ 44 ctx ||| at_ 0 num

/-- A descriptor length that a port copies whole (R162). -/
def descLen (n : Nat) : Nat := if n % 16 = 0 ∧ 16 ≤ n ∧ n ≤ 256 then n else 16

/-- A new job of thread k. -/
def Mach.newJob (m : Mach) (p k : Nat) (d : List Byte) : Job :=
  let t := m.thr k
  let ctx := leAt d 2 1 % 16
  { ctx := ctx, num := tget 0 (m.engine p).next ctx, tcb := k, ring := t.ring, slice := t.slice, desc := d, descOk := true,
    state := .queued, status := 0, result := 0, read := 0, faulty := false, key := 0, qbufs := [], moved := 0, accepted := false,
    evDone := false }

/-- Has a port a free job slot (R394, R426, R475)? -/
def Mach.slotFree (m : Mach) (p : Nat) : Bool :=
  decide ((m.engine p).jobs.length < 64) &&
    (match slotLedger p with
     | some k => decide (0 < (m.ledger k).free)
     | none => true)

/-- Queue a job at a port: it takes its slot and its number (R163 steps 4 and 5). -/
def Mach.queueJob (m : Mach) (p : Nat) (j : Job) : Mach :=
  let e := m.engine p
  let m1 := m.setEngine p { e with jobs := e.jobs ++ [j], next := tset e.next j.ctx ((j.num + 1) % 2 ^ 32) }
  match slotLedger p with
  | some k => m1.take k 1
  | none => m1

/-- Read a descriptor for JOB.SUBMIT: its header, then the rest (R163 step 2). -/
def Mach.readDesc (m : Mach) (c k a : Nat) : Mach × Acc (List Byte) :=
  match m.portRange c k a 16 with
  | (m1, .ok h) =>
    let n := descLen (leAt h 4 4)
    if n = 16 then (m1, .ok h)
    else match m1.portRange c k (a + 16) (n - 16) with
      | (m2, .ok b) => (m2, .ok (h ++ b))
      | r => r
  | r => r

/-- JOB.SUBMIT (R163). -/
def execJobSubmit (c : Fin 72) (gd : BitVec 4) (rd ra rb : BitVec 5) (s : State) : Host.Outcome State Fault Refusal :=
  s.act fun m => m.insn c gd (.jobSubmit c gd rd ra rb) fun m k =>
    let t := m.thr k
    let a := (t.gr ra).toNat
    let p := (t.gr rb).toNat
    if a % 16 ≠ 0 then .exc m 4 0 (t.gr ra)
    else if !isPort p || m.portOff p then .exc m 3 5 0
    else match m.readDesc c k a with
      | (m1, .fault x d xa) => .exc m1 x d xa
      | (m1, .wait) => .stay m1
      | (m1, .ok d) =>
        let j := m1.newJob p k d
        let deny := if t.ring = .r2 && (m1.jobBad p j).isNone then m1.rangesBad k p j else none
        match deny with
        | some (x, q) => .exc m1 3 x (w64 q)
        | none =>
          if m1.slotFree p then .done ((m1.queueJob p j).modThr k fun t => t.gw rd (jobHandle p j.ctx j.num)) else .stay m1

/-! ## Acceptance (R165) -/

/-- The completion word of a job. -/
def Job.word (j : Job) : W64 := at_ 16 j.result ||| at_ 0 j.status

/-- The outstanding job of thread k that a handle names, with its port. -/
def Mach.jobOf (m : Mach) (k : Nat) (h : W64) : Option (Nat × Job) :=
  let p := fld h 55 48
  if isPort p then
    ((m.engine p).jobs.find? fun j => j.tcb == k && !j.accepted && jobHandle p j.ctx j.num == h).map fun j => (p, j)
  else none

/-- The submitter accepts a job's completion. -/
def Mach.acceptJob (m : Mach) (p : Nat) (j : Job) : Mach := (m.setJob p { j with accepted := true }).freeSlots p

/-- JOB.WAIT (R165). -/
def execJobWait (c : Fin 72) (gd : BitVec 4) (rd ra : BitVec 5) (s : State) : Host.Outcome State Fault Refusal :=
  s.act fun m => m.insn c gd (.jobWait c gd rd ra) fun m k =>
    let h := (m.thr k).gr ra
    match m.jobOf k h with
    | none => .done (m.modThr k fun t => t.gw rd (BitVec.allOnes 64))
    | some (p, j) =>
      if j.state = .complete then .done ((m.acceptJob p j).modThr k fun t => t.gw rd j.word)
      else .stay ((m.modThr k fun t => { t with waitRd := rd, waitOn := h }).leaveCore k .jobWait)

/-- JOB.TEST (R165). -/
def execJobTest (c : Fin 72) (gd : BitVec 4) (rd ra : BitVec 5) (pd : BitVec 3) (s : State) : Host.Outcome State Fault Refusal :=
  s.act fun m => m.insn c gd (.jobTest c gd rd ra pd) fun m k =>
    match m.jobOf k ((m.thr k).gr ra) with
    | none => .done (m.modThr k fun t => t.pw pd false)
    | some (p, j) =>
      if j.state = .complete then .done ((m.acceptJob p j).modThr k fun t => (t.gw rd j.word).pw pd true)
      else .done (m.modThr k fun t => t.pw pd false)

/-! ## What an engine reaches (R101, R102, R175, R415, R436) -/

/-- May a job touch the byte at an address? -/
def Mach.engMay (m : Mach) (j : Job) (a : Nat) : Bool :=
  match regionOf a with
  | .granary =>
    let b := m.buf (bufAt a)
    b.owner != 0xC000 && b.owner.extractLsb' 12 4 != 0xB && (j.ring != .r2 || b.charged == some j.slice)
  | .dram _ => true
  | _ => false

/-- What an engine's access ends in. -/
inductive EngOut (α : Type) where
  | ok (v : α)
  /-- it failed at an offset of its range -/
  | bad (off : Nat)
  /-- it waits for the memory -/
  | wait
deriving DecidableEq, Repr

/-- Read [a, a + n) for a job: everything before the first failure, and the offset of that failure. -/
def Mach.engRead (m : Mach) (j : Job) (a n : Nat) : Mach × List Byte × EngOut Unit :=
  let first := a / 8
  let step := fun (s : Mach × List Byte × EngOut Unit) (i : Nat) =>
    match s.2.2 with
    | .ok () =>
      let w := 8 * (first + i)
      let lo := Nat.max a w
      let hi := Nat.min (a + n) (w + 8)
      if !s.1.engMay j lo then (s.1, s.2.1, .bad (lo - a))
      else match s.1.readWord w with
        | (m1, .ok b) => (m1, s.2.1 ++ ((b.drop (lo - w)).take (hi - lo)), .ok ())
        | (m1, .wait) => (m1, s.2.1, .wait)
        | (m1, _) => (m1, s.2.1, .bad (lo - a))
    | _ => s
  let m0 := match regionOf a with
    | .dram q => iter (fun m => m.burst q a) (if n = 0 then 0 else ceilDiv (a % 128 + n) 128) m
    | _ => m
  (List.range (if n = 0 then 0 else ceilDiv (a + n) 8 - first)).foldl step (m0, [], .ok ())

/-- Can a job write [a, a + n)? -/
def Mach.engCan (m : Mach) (j : Job) (a n : Nat) : EngOut Unit :=
  let first := a / 8
  let bad := (List.range (if n = 0 then 0 else ceilDiv (a + n) 8 - first)).findSome? fun i =>
    let lo := Nat.max a (8 * (first + i))
    if !m.engMay j lo then some (EngOut.bad (lo - a))
    else match m.storeReady lo with
      | .ok _ => none
      | .wait => some .wait
      | _ => some (EngOut.bad (lo - a))
  bad.getD (.ok ())

/-- Write the pieces of a job's output one behind the other from an offset of DST, each whole or not at all. Gives the bytes written and
what stopped it: `none` when every piece was written, `some none` when a piece does not fit below the limit. -/
def Mach.engWrite (j : Job) (dst lim : Nat) : List (List Byte) → Nat → Mach → Mach × Nat × Option (Option (EngOut Unit))
  | [], off, m => (m, off, none)
  | p :: t, off, m =>
    if lim < off + p.length then (m, off, some none)
    else match m.engCan j (dst + off) p.length with
      | .ok () => Mach.engWrite j dst lim t (off + p.length) (m.storeMem (dst + off) p)
      | .bad x => (m, off, some (some (.bad (off + x))))
      | .wait => (m, off, some (some .wait))

/-- Must any access of a range wait for its memory? -/
def Mach.engWaits (m : Mach) (a n : Nat) : Bool :=
  (pageStarts a n).any fun p => match regionOf p with
    | .dram q => m.rangeReady q p == 2
    | _ => false

/-- Pieces of n bytes of a list. -/
def chunks (n : Nat) (l : List Byte) : List (List Byte) := (List.range (ceilDiv l.length n)).map fun i => (l.drop (n * i)).take n

/-! ## Running and completing -/

/-- Do the engines run: not in limp mode (R578), and not in P3 or P4 (R592)? -/
def Mach.engOn (m : Mach) : Bool := !m.fwa.limp && decide (m.hq.pstate < 3)

/-- The job at the head of a context: the first that has not completed (R393, R426). -/
def Mach.headJob (m : Mach) (p ctx : Nat) : Option Job := (m.engine p).jobs.find? fun j => j.ctx == ctx && j.state != .complete

/-- The job that a row of function `fn` runs: at the head of its context and still to run. -/
def Mach.toRun (m : Mach) (p ctx fn : Nat) : Option Job :=
  if m.engOn then (m.headJob p ctx).filter fun j => j.fn == fn && j.state == .queued else none

/-- Run the job at the head of a context. A descriptor copy that fails its complement and a descriptor that breaks its rules end the job
before it reads anything (R409, R415, R429, R472). -/
def Mach.runJob (m : Mach) (p ctx fn : Nat) (f : Mach → Job → Mach) : Mach :=
  m.fabric fun m =>
    match m.toRun p ctx fn with
    | none => m
    | some j =>
      if !j.descOk then (m.jobRan p j 0x0304 0).alarm 3 p
      else match m.jobBad p j with
        | some o => m.jobRan p j 0x0101 o
        | none => f m j

/-- A job that no row of a function runs: an unknown FUNCTION. It ends with INVALID-FIELD when its turn comes. -/
def Mach.unknownJob (m : Mach) (p ctx : Nat) : Mach :=
  match m.headJob p ctx with
  | none => m
  | some j =>
    let known := if p / 16 = 1 then decide (1 ≤ j.fn ∧ j.fn ≤ 3) else decide (1 ≤ j.fn ∧ j.fn ≤ 4)
    if j.state = .queued && !known then
      if j.descOk then m.jobRan p j 0x0101 0 else (m.jobRan p j 0x0304 0).alarm 3 p
    else m

/-- What a completed job's status does to the counts and events of its engine (R412, R413, R419, R420, R425, R439, R440, R483, R484). -/
def Mach.jobCounts (m : Mach) (p : Nat) (j : Job) : Mach :=
  let e := m.engine p
  let other := j.status == 0x0409 || j.status == 0x0304
  let u := p % 16
  if p / 16 = 1 then
    let e1 := { e with inBytes := sat (2 ^ 64 - 1) (e.inBytes + j.read) }
    let e2 :=
      if j.status = 0x0401 then { e1 with err0 := up16 e.err0 }
      else if j.faulty then { e1 with err1 := up16 e.err1 }
      else if j.status = 0x0400 then { e1 with err2 := up16 e.err2 }
      else if other then { e1 with err3 := up16 e.err3 } else e1
    let m1 := m.setEngine p e2
    if j.status = 0x0401 then m1.raise (512 + 8 * u + 3)
    else if j.faulty then m1.raise (512 + 8 * u + 1)
    else if j.status = 0x0400 then m1.raise (512 + 8 * u + 2) else m1
  else if p / 16 = 2 then
    let e1 := { e with inBytes := sat (2 ^ 64 - 1) (e.inBytes + j.read) }
    let e2 :=
      if j.status = 0x0407 then { e1 with err0 := up16 e.err0 }
      else if j.status = 0x0406 then { e1 with err1 := up16 e.err1 }
      else if other then { e1 with err3 := up16 e.err3 } else e1
    let m1 := m.setEngine p e2
    if j.status = 0x0407 then m1.raise (576 + 8 * u + 1)
    else if j.status = 0x0406 then m1.raise (576 + 8 * u + 2) else m1
  else
    let w := m.wnw
    let w1 :=
      if j.status = 0x0400 then { w with full := up16 w.full }
      else if j.status = 0x0101 ∨ j.status = 0x0105 then { w with field := up16 w.field }
      else if other && j.result / 2 ^ 32 != 2 then { w with other := up16 w.other } else w
    let m1 := { m with wnw := w1 }
    if j.status = 0x0400 then m1.raise 641 else m1

/-- A job completes: its status stands, its event is raised, and a thread that waits for it, or the scheduler for a deleted one, accepts
it (R165, R185, R196). -/
def Mach.completeJob (m : Mach) (p : Nat) (j : Job) : Mach :=
  let m1 := m.jobCounts p j
  let (m2, done) := if !j.event then (m1, true) else match m1.acceptEv (portEvent p) with
    | some x => (x, true)
    | none => (m1.holdRaise (.ev (portEvent p)), false)
  let t := m2.thr j.tcb
  let waits := t.state == .waiting && t.waitKind == .jobWait && t.waitOn == jobHandle p j.ctx j.num && !m2.readyHeld j.tcb
  let m3 := m2.setJob p { j with state := .complete, evDone := done, accepted := t.deleting || waits }
  let m4 := m3.freeSlots p
  if waits then m4.waitDone j.tcb (.value j.word) else m4

/-- ENGINE_JOB_COMPLETE (R165): the job at the head of a context has run, and completes. -/
def execEngineJobComplete (p : BitVec 8) (ctx : Fin 16) (s : State) : Host.Outcome State Fault Refusal :=
  s.act fun m => m.fabric fun m =>
    if !m.engOn then m
    else
      let m1 := m.unknownJob p.toNat ctx
      match m1.headJob p.toNat ctx with
      | none => m1
      | some j => if j.state = .ran then m1.completeJob p.toNat j else m1

/-! ## Status registers of the engines (R420, R421, R440, R441) -/

/-- STAT of an engine: queued jobs, the offline copy, and the contexts with a job not yet completed. -/
def Eng.stat (e : Eng) : W64 :=
  at_ 32 e.jobs.length ||| flagAt 16 e.offline |||
  at_ 0 (((List.range 16).filter fun c => e.jobs.any fun j => j.ctx == c && j.state != .complete).map fun c => 2 ^ c).sum

/-- ERR of an engine. -/
def Eng.errWord (e : Eng) : W64 := at_ 48 e.err0 ||| at_ 32 e.err1 ||| at_ 16 e.err2 ||| at_ 0 e.err3

/-- A read of register `off` of the engine at port p: rings 0 and 1. -/
def Mach.engRegRead (m : Mach) (w : Who) (p off : Nat) : Mach × RegOut :=
  let e := m.engine p
  if !w.low then (m, .denied 1)
  else match off with
    | 0 => (m, .value e.stat)
    | 8 => (m, .value (flagAt 0 e.offline))
    | 0x10 => (m.setEngine p { e with err0 := 0, err1 := 0, err2 := 0, err3 := 0 }, .value e.errWord)
    | 0x18 => (m, .value (w64 e.inBytes))
    | _ => (m, .value 0)

/-- A write to CFG of the engine at port p: ring 0. Setting OFFLINE raises the engine's event. -/
def Mach.offlineWrite (m : Mach) (w : Who) (p a : Nat) (v : W64) : Mach × RegOut :=
  m.writeReg w a v (rsvBits [(0, 0)]) w.zero true fun m =>
    let e := m.engine p
    let m1 := m.setEngine p { e with offline := bit v 0 }
    if bit v 0 && !e.offline then m1.raise (portEvent p + 4) else m1

/-- Address of a GRT register. -/
def grtReg (e off : Nat) : Nat := 0x200900000 + 0x100 * e + off
/-- Address of a CPH register. -/
def cphReg (q off : Nat) : Nat := 0x200A00000 + 0x100 * q + off

/-- GRT_OFFLINE_WRITE (R421). -/
def execGrtOfflineWrite (w : Who) (e : Fin 8) (v : W64) (s : State) : Host.Outcome State Fault Refusal :=
  s.access fun m => m.offlineWrite w (0x10 + e) (grtReg e 8) v

/-- CPH_OFFLINE_WRITE (R441). -/
def execCphOfflineWrite (w : Who) (q : Fin 4) (v : W64) (s : State) : Host.Outcome State Fault Refusal :=
  s.access fun m => m.offlineWrite w (0x20 + q) (cphReg q 8) v

end Sys2Proof.Machine
end

