-- ==== Sys2Proof/Machine/GroatJobs.lean ====
section
/-! DEFINITION. The jobs of the Groat engines: COMPRESS, DECOMPRESS and VALIDATE (R408 to R416). Each job acts in one step. -/

namespace Sys2Proof.Machine

/-- Is a block of a frame one that passes the checker path: CODED or ZERO (R412)? -/
def checkedBlock (b : List Byte) : Bool := leAt b 0 2 / 16384 != 0

/-- COMPRESS (R406, R410 to R412). `fault` is the block, if any, that the checker finds different. -/
def Mach.compressJob (m : Mach) (p : Nat) (fault : Option Nat) (j : Job) : Mach :=
  let slen := j.f 0x20 4
  let g := GParam.of (j.f 0x28 1) (j.f 0x2A 2) (j.f 0x2C 2)
  let (m1, got, r) := m.engRead j (j.f 0x10 8) slen
  if r = .wait then m
  else
    let whole := if got.length = slen then ceilDiv slen 4096 else got.length / 4096
    let data := got.take (4096 * whole)
    let blocks := g.blocks data.toArray
    let stop := match fault with
      | some i => if (blocks[i]?).any checkedBlock then some i else none
      | none => none
    let n := stop.getD whole
    let all := g.pieces data
    let ps := if stop.isNone && got.length = slen then all else all.take n
    let (m2, off, w) := m1.engWrite j (j.f 0x18 8) (j.f 0x24 4) ps 0
    let j1 := { j with read := match stop with | some i => Nat.min slen (4096 * (i + 1)) | none => got.length }
    match w with
    | some none => m2.jobRan p j1 0x0400 off
    | some (some (.bad x)) => m2.jobRan p j1 0x0409 (2 ^ 32 + x)
    | some (some _) => m
    | none =>
      match stop, r with
      | some i, _ => m2.jobRan p j1 0x0401 (4096 * i)
      | none, .bad x => m2.jobRan p j1 0x0409 x
      | none, _ => m2.jobRan p j1 0 off

/-- How a frame's decoding ends: its output, and a status with its offset. -/
structure Decoded where
  out    : List Byte
  status : Nat
  off    : Nat
  /-- a fault of R413 that is not one of the trailer row -/
  faulty : Bool

/-- The end that a fault of the frame gives; a needed byte that the engine could not read is a BUS-ERROR instead (R413, R415). -/
def GFault.decoded (f : GFault) (out : List Byte) (whole : Bool) : Decoded :=
  if f.status = 0x0405 ∧ !whole then { out := out, status := 0x0409, off := f.off, faulty := false }
  else { out := out, status := f.status, off := f.off, faulty := !f.trailer }

/-- Decode the bytes `got` of a frame; `whole` says that they are all of [SRC, SRC + SLEN). -/
def decodeFrame (got : List Byte) (whole : Bool) (dlim : Option Nat) : Decoded :=
  if got.length < 16 then { out := [], status := 0x0409, off := got.length, faulty := false }
  else match gHeader got.toArray with
    | .error f => f.decoded [] whole
    | .ok (g, olen) =>
      if dlim.any fun d => d < olen then { out := [], status := 0x0400, off := 0, faulty := false }
      else match gDecode got.toArray g olen with
        | (out, some f) => f.decoded out whole
        | (out, none) => { out := out, status := 0, off := olen, faulty := false }

/-- DECOMPRESS and VALIDATE (R410, R413 to R415). -/
def Mach.decodeJob (m : Mach) (p : Nat) (write : Bool) (j : Job) : Mach :=
  let slen := j.f 0x20 4
  let (m1, got, r) := m.engRead j (j.f 0x10 8) slen
  if r = .wait then m
  else
    let d := decodeFrame got (got.length == slen) (if write then some (j.f 0x24 4) else none)
    let (m2, off, w) := if write then m1.engWrite j (j.f 0x18 8) (j.f 0x24 4) (chunks 4096 d.out) 0 else (m1, 0, none)
    let j1 := { j with read := got.length, faulty := d.faulty }
    match w with
    | some (some (.bad x)) => m2.jobRan p { j1 with faulty := false } 0x0409 (2 ^ 32 + x)
    | some (some .wait) => m
    | _ =>
      if d.status = 0 ∨ d.status = 0x0400 ∨ d.status = 0x0409 then m2.jobRan p j1 d.status d.off
      else m2.jobRan p j1 d.status (2 ^ 32 * (off / 4096) + d.off)

/-- COMPRESS (R406): `fault` is the block, if any, in which the checker path finds a difference (R412). -/
def execCompress (e : Fin 8) (ctx : Fin 16) (fault : Option Nat) (s : State) : Host.Outcome State Fault Refusal :=
  s.act fun m => m.runJob (0x10 + e) ctx 1 fun m j => m.compressJob (0x10 + e) fault j

/-- DECOMPRESS (R413, R414). -/
def execDecompress (e : Fin 8) (ctx : Fin 16) (s : State) : Host.Outcome State Fault Refusal :=
  s.act fun m => m.runJob (0x10 + e) ctx 2 fun m j => m.decodeJob (0x10 + e) true j

/-- VALIDATE (R413). -/
def execValidate (e : Fin 8) (ctx : Fin 16) (s : State) : Host.Outcome State Fault Refusal :=
  s.act fun m => m.runJob (0x10 + e) ctx 3 fun m j => m.decodeJob (0x10 + e) false j

end Sys2Proof.Machine
end

