-- ==== Sys2Proof/Machine/CipherJobs.lean ====
section
/-! DEFINITION. The jobs of the cipher pairs: XTS, GCM and quarantine (R424 to R438). A job acts in one step; a GCM decryption may wait
for its reservation and moves its buffers one by one. -/

namespace Sys2Proof.Machine

/-- Use a key slot for a job (R430, R452): the key's value, or the status that ends the job. -/
def Mach.jobKey (m : Mach) (j : Job) (slot : Nat) (u : Usage) : Mach × Except Nat (BitVec 256) :=
  match m.useKey slot j.ring j.slice [u] with
  | (m1, none) => (m1, .error 0x0304)
  | (m1, some false) => (m1, .error 0x0105)
  | (m1, some true) => (m1, .ok (m1.key slot).value)

/-- A job ends for its key: SLICE-DENIED with RESULT 0x24, or INTEGRITY-ALARM (R430, R438). -/
def Mach.keyRefused (m : Mach) (p : Nat) (j : Job) (st : Nat) : Mach := m.jobRan p j st (if st = 0x0105 then 0x24 else 0)

/-- RESULT of a BUS-ERROR of a cipher job: the range and the offset in it (R438). -/
def cphBus (range off : Nat) : Nat := 2 ^ 46 * range + off

/-- The cipher integrity alarm of pair p with the end of its job (R425). -/
def Mach.faultCheck (m : Mach) (p : Nat) (j : Job) (seg : Nat) : Mach := (m.jobRan p j 0x0407 (4096 * seg)).alarm 10 p

/-- The failing segment, if it exists in a message of n bytes. -/
def segFault (fault : Option Nat) (n : Nat) : Option Nat := fault.filter fun i => decide (4096 * i < n)

/-- Bytes of a message that pass before the first thing that ends its job: all that was read, or the whole segments before a failing
segment or a failing read. -/
def passed (got n : Nat) (fault : Option Nat) : Nat :=
  let whole := if got = n then n else 4096 * (got / 4096)
  match fault with
  | some i => Nat.min whole (4096 * i)
  | none => whole

/-- Does the check of a failing segment come before the failing read? -/
def faultFirst (got n : Nat) (fault : Option Nat) : Option Nat := fault.filter fun i => decide (Nat.min n (4096 * (i + 1)) ≤ got)

/-- XTS-ENCRYPT and XTS-DECRYPT (R431). -/
def Mach.xtsJob (m : Mach) (p : Nat) (enc : Bool) (fault : Option Nat) (j : Job) : Mach :=
  let n := j.f 0x20 4
  let slot := j.f 0x24 2
  match m.jobKey j slot .xts1 with
  | (m1, .error st) => m1.keyRefused p j st
  | (m1, .ok k1) =>
    match m1.jobKey j (slot + 1) .xts2 with
    | (m2, .error st) => m2.keyRefused p j st
    | (m2, .ok k2) =>
      let (m3, got, r) := m2.engRead j (j.f 0x10 8) n
      if r = .wait then m
      else
        let fl := faultFirst got.length n (segFault fault n)
        let data := got.take (passed got.length n fl)
        let out := xts enc k1 k2 (j.f 0x26 2) (j.f 0x28 16) data
        let (m4, _, w) := m3.engWrite j (j.f 0x18 8) n (chunks 4096 out) 0
        let j1 := { j with read := got.length }
        match w with
        | some (some (.bad x)) => m4.jobRan p j1 0x0409 (cphBus 1 x)
        | some (some .wait) => m
        | _ =>
          match fl, r with
          | some i, _ => m4.faultCheck p j1 i
          | none, .bad x => m4.jobRan p j1 0x0409 (cphBus 0 x)
          | none, _ => m4.jobRan p j1 0 n

/-- The IV of a GCM job. -/
def Job.iv (j : Job) : List Byte := (j.desc.drop 0x28).take 12

/-- GCM-ENCRYPT (R433). -/
def Mach.gcmEncJob (m : Mach) (p : Nat) (fault : Option Nat) (j : Job) : Mach :=
  let n := j.f 0x20 4
  match m.jobKey j (j.f 0x24 2) .general with
  | (m1, .error st) => m1.keyRefused p j st
  | (m1, .ok key) =>
    let (m2, aad, ra) := m1.engRead j (j.f 0x38 8) (j.f 0x40 4)
    match ra with
    | .wait => m
    | .bad x => m2.jobRan p { j with read := aad.length } 0x0409 (cphBus 2 x)
    | .ok () =>
      let (m3, got, r) := m2.engRead j (j.f 0x10 8) n
      if r = .wait then m
      else
        let fl := faultFirst got.length n (segFault fault n)
        let out := gcmCrypt key j.iv (got.take (passed got.length n fl))
        let (m4, _, w) := m3.engWrite j (j.f 0x18 8) n (chunks 4096 out) 0
        let j1 := { j with read := aad.length + got.length }
        match w with
        | some (some (.bad x)) => m4.jobRan p j1 0x0409 (cphBus 1 x)
        | some (some .wait) => m
        | _ =>
          match fl, r with
          | some i, _ => m4.faultCheck p j1 i
          | none, .bad x => m4.jobRan p j1 0x0409 (cphBus 0 x)
          | none, _ =>
            match m4.engCan j (j.f 0x48 8) 16 with
            | .bad x => m4.jobRan p j1 0x0409 (cphBus 3 x)
            | .wait => m
            | .ok () => (m4.storeMem (j.f 0x48 8) (gcmTag key j.iv aad out)).jobRan p j1 0 n

/-! ## GCM-DECRYPT (R434 to R437) -/

/-- Reserve the quarantine buffers of a message in one step, if R59 and R60 permit them all (R66, R434 step 2). -/
def Mach.quarReserve (m : Mach) (p : Nat) (j : Job) : Option Mach :=
  let n := j.qbufsNeeded
  match m.allocMany 6 (BitVec.ofNat 16 (0xB000 + p % 16)) j.qcharge n with
  | none => none
  | some (l, m1) =>
    let m2 := if n = 0 then m1 else m1.take 8 (4096 * n)
    some (m2.setJob p { j with qbufs := l, moved := 0, state := .reserved })

/-- A job with a reservation ends without it: its buffers are zeroed and freed (R437). -/
def Mach.quarEnd (m : Mach) (p : Nat) (j : Job) (st rs : Nat) : Mach := (m.dropQuar p j).jobRan p j st rs

/-- The handle list of a GCM decryption (R434 step 5a). -/
def handleList (l : List Nat) : List Byte := l.flatMap fun k => leBytes 2 (handleOf k)

/-- The owner identity of a job's submitter (R63). -/
def Job.owner (j : Job) : BitVec 16 := Who.owner { ring := j.ring, slice := j.slice, tcb := j.tcb, dbg := false }

/-- Every buffer has moved: the handle list is written and the job ends with SUCCESS. A list that cannot be written ends it with
BUS-ERROR, and the buffers that nobody has learnt of are zeroed and freed (R437). -/
def Mach.quarDone (m : Mach) (p : Nat) (j : Job) : Mach :=
  let a := j.f 0x18 8
  let l := handleList j.qbufs
  match m.engCan j a l.length with
  | .ok () => (m.storeMem a l).jobRan p j 0 (j.f 0x20 4)
  | .bad x => (m.releaseAll (j.qbufs.filter fun k => (m.buf k).state == .owned && (m.buf k).owner == j.owner)).jobRan p j 0x0409 (cphBus 1 x)
  | .wait => m

/-- Plaintext of segment i goes into buffer i of the reservation. -/
def Mach.quarFill (m : Mach) : List Nat → List (List Byte) → Mach
  | k :: ks, b :: t => Mach.quarFill (m.storeMem (bufAddr k) b) ks t
  | _, _ => m

/-- Steps 3 to 5b of R434 on a job whose buffers are reserved. -/
def Mach.gcmOpen (m : Mach) (p : Nat) (fault : Option Nat) (j : Job) : Mach :=
  let n := j.f 0x20 4
  let (m1, aad, ra) := m.engRead j (j.f 0x38 8) (j.f 0x40 4)
  match ra with
  | .wait => m
  | .bad x => m1.quarEnd p { j with read := aad.length } 0x0409 (cphBus 2 x)
  | .ok () =>
    let (m2, got, r) := m1.engRead j (j.f 0x10 8) n
    let j1 := { j with read := aad.length + got.length }
    if r = .wait then m
    else match faultFirst got.length n (segFault fault n), r with
      | some i, _ =>
        let m3 := (m2.dropQuar p j1).faultCheck p j1 i
        m3
      | none, .bad x => m2.quarEnd p j1 0x0409 (cphBus 0 x)
      | none, _ =>
        let (m3, tag, rt) := m2.engRead j (j.f 0x48 8) 16
        match rt with
        | .wait => m
        | .bad x => m3.quarEnd p j1 0x0409 (cphBus 3 x)
        | .ok () =>
          if tag = gcmTag j.key j.iv aad got then
            let m4 := m3.quarFill j.qbufs (chunks 4096 (gcmCrypt j.key j.iv got))
            let j2 := { j1 with state := .moving }
            if j.qbufs.isEmpty then m4.quarDone p j2 else m4.setJob p j2
          else m3.quarEnd p j1 0x0406 0

/-- GCM-DECRYPT (R434): the checks and the reservation of a new job, then decryption once the buffers stand. -/
def Mach.gcmDecJob (m : Mach) (p : Nat) (fault : Option Nat) (j : Job) : Mach :=
  match m.jobKey j (j.f 0x24 2) .general with
  | (m1, .error st) => m1.keyRefused p j st
  | (m1, .ok key) =>
    let j1 := { j with key := key }
    match m1.quarReserve p j1 with
    | some m2 => ((m2.headJob p j.ctx).map fun j2 => m2.gcmOpen p fault j2).getD m2
    | none =>
      let e := m1.engine p
      let m2 := m1.setEngine p { e with err2 := up16 e.err2 }
      (m2.setJob p { j1 with state := .reserving }).raise (576 + 8 * (p % 16) + 3)

/-- May a quarantine buffer move to its output class: the class stands below its ceiling (R66)? -/
def Mach.moveFits (m : Mach) (c : Nat) : Bool := decide ((m.cls c).held < (m.cls c).ceil)

/-- Move the next buffer of a verified message from quarantine to its class and its submitter (R434 step 5a). -/
def Mach.quarMove (m : Mach) (p : Nat) (j : Job) : Mach :=
  match j.qbufs[j.moved]? with
  | none => m.quarDone p j
  | some k =>
    let c := j.f 0x44 1
    if !m.moveFits c then m
    else
      let b := m.buf k
      let m1 := ((m.classDown 6).classUp c).setBuf k { b with owner := j.owner, cls := c }
      let j1 := { j with moved := j.moved + 1 }
      let m2 := (m1.give 8 4096).setJob p j1
      if j1.moved = j.qbufs.length then m2.quarDone p j1 else m2

/-! ## Rows -/

/-- XTS_ENCRYPT (R431): `fault` is the segment, if any, whose check finds a difference (R424, R425). -/
def execXtsEncrypt (q : Fin 4) (ctx : Fin 16) (fault : Option Nat) (s : State) : Host.Outcome State Fault Refusal :=
  s.act fun m => m.runJob (0x20 + q) ctx 1 fun m j => m.xtsJob (0x20 + q) true fault j

/-- XTS_DECRYPT (R431). -/
def execXtsDecrypt (q : Fin 4) (ctx : Fin 16) (fault : Option Nat) (s : State) : Host.Outcome State Fault Refusal :=
  s.act fun m => m.runJob (0x20 + q) ctx 2 fun m j => m.xtsJob (0x20 + q) false fault j

/-- GCM_ENCRYPT (R433). -/
def execGcmEncrypt (q : Fin 4) (ctx : Fin 16) (fault : Option Nat) (s : State) : Host.Outcome State Fault Refusal :=
  s.act fun m => m.runJob (0x20 + q) ctx 3 fun m j => m.gcmEncJob (0x20 + q) fault j

/-- GCM_DECRYPT (R434): a new job is checked and reserves its buffers; a job with its buffers is decrypted and its tag compared. -/
def execGcmDecrypt (q : Fin 4) (ctx : Fin 16) (fault : Option Nat) (s : State) : Host.Outcome State Fault Refusal :=
  s.act fun m =>
    match m.headJob (0x20 + q) ctx with
    | some j =>
      if j.state = .reserved then m.fabric fun m => if m.engOn then m.gcmOpen (0x20 + q) fault j else m
      else m.runJob (0x20 + q) ctx 4 fun m j => m.gcmDecJob (0x20 + q) fault j
    | none => m

/-- QUARANTINE_RESERVE (R434 step 2). -/
def execQuarantineReserve (q : Fin 4) (ctx : Fin 16) (s : State) : Host.Outcome State Fault Refusal :=
  s.act fun m => m.fabric fun m =>
    match m.headJob (0x20 + q) ctx with
    | some j => if j.state = .reserving then (m.quarReserve (0x20 + q) j).getD m else m
    | none => m

/-- QUARANTINE_MOVE (R434 step 5a). -/
def execQuarantineMove (q : Fin 4) (ctx : Fin 16) (s : State) : Host.Outcome State Fault Refusal :=
  s.act fun m => m.fabric fun m =>
    match m.headJob (0x20 + q) ctx with
    | some j => if j.state = .moving then m.quarMove (0x20 + q) j else m
    | none => m

/-- Jobs of the pairs that wait for quarantine, and the buffers they ask for (CPH_QUAR, R440). -/
def Mach.quarWord (m : Mach) : W64 :=
  let l := m.eng.flatMap fun e => e.2.jobs.filter fun j => j.state == .reserving
  at_ 16 l.length ||| at_ 0 (l.map Job.qbufsNeeded).sum

end Sys2Proof.Machine
end

