-- ==== Sys2Proof/Machine/Winnow.lean ====
section
/-! DEFINITION. The winnow array's general banks: rows and segments, searches, updates, jobs and registers (R460 to R484).
A job acts in one step. -/

namespace Sys2Proof.Machine

/-- Address of a WNW register. -/
def wnwReg (off : Nat) : Nat := 0x200C00000 + off

/-! ## Rows in region order (R464) -/

/-- Segments of a slice's region, ascending. -/
def Mach.region (m : Mach) (s : Nat) : List Nat := tget [] m.wnw.segs s

/-- The 16 rows of a segment. -/
def Mach.segRows (m : Mach) (g : Nat) : List (Option WRow) := (List.range 16).map fun r => tget? m.wnw.rows (16 * g + r)

/-- Put the 16 rows of a segment. -/
def Mach.setSegRows (m : Mach) (g : Nat) (l : List (Option WRow)) : Mach :=
  let clear := tdelRange m.wnw.rows (16 * g) (16 * g + 16)
  let put := fun (t : Tab WRow) (r : Nat) => match (l[r]?).join with
    | some w => tset t (16 * g + r) w
    | none => t
  { m with wnw := { m.wnw with rows := (List.range 16).foldl put clear } }

/-- Valid rows of a segment. -/
def Mach.segCount (m : Mach) (g : Nat) : Nat := ((m.segRows g).filter Option.isSome).length

/-- Valid rows of a region in region order, each with its row number. -/
def Mach.regionRows (m : Mach) (s : Nat) : List (Nat × WRow) :=
  (m.region s).flatMap fun g => m.wnw.rows.filter fun r => r.1 / 16 == g

/-- Does row a stand before, or equal, a bound pair in the order of R464? -/
def WRow.upTo (a : WRow) (lo hi : W64) : Bool := a.lower.ult lo || (a.lower == lo && a.upper.ule hi)

/-! ## Search (R466, R467) -/

/-- Does a row match a key of a table? -/
def WRow.hits (r : WRow) (key : W64) (table : Nat) : Bool := r.table == table && r.lower.ule key && key.ule r.upper

/-- The row a search selects: the largest PRIO, of equal ones the first in region order. -/
def Mach.winnow (m : Mach) (s : Nat) (key : W64) (table : Nat) : Option WRow :=
  ((m.regionRows s).filter fun r => r.2.hits key table).foldl (fun (b : Option WRow) r => match b with
    | none => some r.2
    | some x => if x.prio < r.2.prio then some r.2 else b) none

/-- The search result word. -/
def resultWord : Option WRow → W64
  | none => 0
  | some r => flagAt 63 true ||| at_ 32 r.prio ||| at_ 0 r.result.toNat

/-! ## Insertion (R468) -/

/-- Place a row before slot g of a segment: the rows between g and the nearest hole shift by one. -/
def placeAt (l : List (Option WRow)) (g : Nat) (w : WRow) : List (Option WRow) :=
  let hole := fun (i : Nat) => ((l[i]?).getD (some w)).isNone
  let up := ((List.range 16).filter fun i => decide (g ≤ i) && hole i).head?
  let down := ((List.range 16).filter fun i => decide (i < g) && hole i).getLast?
  let right := fun (h : Nat) => l.take g ++ [some w] ++ (l.drop g).take (h - g) ++ l.drop (h + 1)
  let left := fun (h : Nat) => l.take h ++ (l.drop (h + 1)).take (g - 1 - h) ++ [some w] ++ l.drop g
  match up, down with
  | some h, none => right h
  | none, some h => left h
  | some h, some k => if h - g ≤ g - 1 - k then right h else left k
  | none, none => l

/-- The slots of a segment that hold a row. -/
def usedSlots (l : List (Option WRow)) : List Nat := (List.range 16).filter fun i => ((l[i]?).join).isSome

/-- Place a row in a segment behind the last row that goes up to it. -/
def placeIn (l : List (Option WRow)) (w : WRow) : List (Option WRow) :=
  let before := (usedSlots l).filter fun i => ((l[i]?).join).any fun r => r.upTo w.lower w.upper
  match before.getLast? with
  | some i => placeAt l (i + 1) w
  | none => placeAt l ((usedSlots l).head?.getD 0) w

/-- Take the last row out of a segment. -/
def takeLast (l : List (Option WRow)) : Option WRow × List (Option WRow) :=
  match (usedSlots l).getLast? with
  | some i => ((l[i]?).join, l.set i none)
  | none => (none, l)
/-- Take the first row out of a segment. -/
def takeFirst (l : List (Option WRow)) : Option WRow × List (Option WRow) :=
  match (usedSlots l).head? with
  | some i => ((l[i]?).join, l.set i none)
  | none => (none, l)
/-- Put a row in front of every row of a segment. -/
def putFirst (l : List (Option WRow)) (w : WRow) : List (Option WRow) := placeAt l ((usedSlots l).head?.getD 0) w
/-- Put a row behind every row of a segment. -/
def putLast (l : List (Option WRow)) (w : WRow) : List (Option WRow) :=
  placeAt l (((usedSlots l).getLast?.map (· + 1)).getD 0) w

/-- Move the last row of segment a to the front of segment b. -/
def Mach.moveUp (m : Mach) (a b : Nat) : Mach :=
  match takeLast (m.segRows a) with
  | (some w, l) => (m.setSegRows a l).setSegRows b (putFirst (m.segRows b) w)
  | _ => m
/-- Move the first row of segment a to the back of segment b. -/
def Mach.moveDown (m : Mach) (a b : Nat) : Mach :=
  match takeFirst (m.segRows a) with
  | (some w, l) => (m.setSegRows a l).setSegRows b (putLast (m.segRows b) w)
  | _ => m

/-- Insert a row in the region of slice s; none when every segment is full. Gives the update slots used. -/
def Mach.winnowInsert (m : Mach) (s : Nat) (w : WRow) : Option (Nat × Mach) :=
  let segs := m.region s
  let n := segs.length
  let seg := fun (i : Nat) => (segs[i]?).getD 0
  let room := fun (i : Nat) => decide (m.segCount (seg i) < 15)
  let pred := ((m.regionRows s).filter fun r => r.2.upTo w.lower w.upper).getLast?
  let g := match pred with
    | some r => (segs.findIdx? fun x => x == r.1 / 16).getD 0
    | none => 0
  if !(List.range n).any room then none
  else if room g then some (1, m.setSegRows (seg g) (placeIn (m.segRows (seg g)) w))
  else match (List.range n).find? fun i => decide (g < i) && room i with
    | some t =>
      -- the segments between g and t hand their last rows on, from t back to g
      let m1 := ((List.range (t - g - 1)).map fun i => t - 1 - i).foldl (fun m i => m.moveUp (seg i) (seg (i + 1))) m
      let rows := m1.segRows (seg g)
      let last := ((usedSlots rows).getLast?.bind fun i => (rows[i]?).join).any fun r => r.upTo w.lower w.upper
      -- a row whose place is behind the last row of g is itself the row at the boundary
      let m2 := if last then m1.setSegRows (seg (g + 1)) (putFirst (m1.segRows (seg (g + 1))) w)
        else
          let m3 := m1.moveUp (seg g) (seg (g + 1))
          m3.setSegRows (seg g) (placeIn (m3.segRows (seg g)) w)
      some (1 + (t - g), m2)
    | none =>
      match ((List.range g).filter room).getLast? with
      | some t =>
        let m1 := ((List.range (g - t - 1)).map fun i => t + 1 + i).foldl (fun m i => m.moveDown (seg i) (seg (i - 1))) m
        let m2 := m1.moveDown (seg g) (seg (g - 1))
        some (1 + (g - t), m2.setSegRows (seg g) (placeIn (m2.segRows (seg g)) w))
      | none => none

/-- Clear every row of a region for which a test holds: the rows cleared become holes (R469). Gives their number. -/
def Mach.winnowClear (m : Mach) (s : Nat) (p : WRow → Bool) : Nat × Mach :=
  let segs := m.region s
  let hit := fun (r : Nat × WRow) => segs.contains (r.1 / 16) && p r.2
  ((m.wnw.rows.filter hit).length, { m with wnw := { m.wnw with rows := m.wnw.rows.filter fun r => !hit r } })

/-- Update slots are counted (R484). -/
def Mach.winnowSlots (m : Mach) (n : Nat) : Mach := { m with wnw := { m.wnw with updates := sat (2 ^ 64 - 1) (m.wnw.updates + n) } }

/-! ## Jobs (R470 to R474, R482) -/

/-- A search or update of item i meets an uncorrectable row of the region: that row is cleared and the job ends (R482). -/
def Mach.winnowBad (m : Mach) (s i : Nat) : Option (Mach × Nat × Nat) :=
  ((m.regionRows s).find? fun r => r.2.bad).map fun r =>
    let m1 := { m with wnw := { m.wnw with rows := tdel m.wnw.rows r.1, uncorr := up16 m.wnw.uncorr } }
    (m1.raise 642, 0x0409, 2 * 2 ^ 32 + i)

/-- One item of a job: the machine after it with the job's running count, or its end. -/
abbrev ItemOut := Except (Mach × Nat × Nat) (Mach × Nat)

/-- A key of a SEARCH: its result word is written as the search completes. -/
def Job.searchItem (j : Job) (i : Nat) (b : List Byte) (m : Mach) (n : Nat) : ItemOut :=
  let s := j.f 0x25 1
  match m.winnowBad s i with
  | some e => .error e
  | none =>
    let r := m.winnow s (w64 (leNat b)) (j.f 0x24 1)
    let a := j.f 0x18 8 + 8 * i
    let m1 := { m with wnw := { m.wnw with searches := sat (2 ^ 64 - 1) (m.wnw.searches + 1) } }
    match m1.engCan j a 8 with
    | .ok () => .ok (m1.storeMem a (leBytes 8 (resultWord r).toNat), if r.isSome then n + 1 else n)
    | _ => .error (m1, 0x0409, 2 ^ 32 + 8 * i)

/-- A row image of an INSERT. -/
def Job.insertItem (j : Job) (i : Nat) (b : List Byte) (m : Mach) (n : Nat) : ItemOut :=
  let s := j.f 0x25 1
  let w : WRow := { lower := w64 (leAt b 0 8), upper := w64 (leAt b 8 8), prio := leAt b 0x10 2, result := BitVec.ofNat 32 (leAt b 0x14 4),
                    table := leAt b 0x12 1, bad := false }
  if w.upper.ult w.lower ∨ leAt b 0x13 1 ≠ 0 ∨ leAt b 0x18 8 ≠ 0 then .error (m, 0x0101, 2 ^ 32 + i)
  else match m.winnowBad s i with
    | some e => .error e
    | none =>
      match m.winnowInsert s w with
      | none => .error (m, 0x0400, n)
      | some (u, m1) => .ok (m1.winnowSlots u, n + 1)

/-- A bound pair of a DELETE. -/
def Job.deleteItem (j : Job) (i : Nat) (b : List Byte) (m : Mach) (n : Nat) : ItemOut :=
  let s := j.f 0x25 1
  match m.winnowBad s i with
  | some e => .error e
  | none =>
    let (k, m1) := m.winnowClear s fun r => r.table == j.f 0x24 1 && r.lower == w64 (leAt b 0 8) && r.upper == w64 (leAt b 8 8)
    .ok (m1.winnowSlots 1, n + k)

/-- Process the items of a job in order, from item i on. -/
def Job.items (j : Job) (f : Nat → List Byte → Mach → Nat → ItemOut) : List (List Byte) → Nat → Mach → Nat → ItemOut
  | [], _, m, n => .ok (m, n)
  | b :: t, i, m, n =>
    match f i b m n with
    | .ok (m1, n1) => Job.items j f t (i + 1) m1 n1
    | .error e => .error e

/-- The SLICE check that follows the descriptor's (R473): the status that ends the job. -/
def Mach.winnowSlice (m : Mach) (j : Job) : Option Nat :=
  let s := j.f 0x25 1
  if j.ring = .r2 then (if s = j.slice then none else some 0x0105)
  else if (m.slice s).state = .live then none else some 0x0101

/-- Run a winnow job over its items. -/
def Mach.winnowJob (m : Mach) (f : Job → Nat → List Byte → Mach → Nat → ItemOut) (j : Job) : Mach :=
  let p := 0x30
  match m.winnowSlice j with
  | some st => m.jobRan p j st 0x25
  | none =>
    let n := j.f 0x20 4
    let size := j.itemSize
    if j.fn = 1 && m.engWaits (j.f 0x18 8) (8 * n) then m
    else
      let (m1, got, r) := m.engRead j (j.f 0x10 8) (n * size)
      if r = .wait then m
      else
        let k := got.length / size
        match Job.items j (f j) ((chunks size got).take k) 0 m1 0 with
        | .error (m2, st, rs) => m2.jobRan p j st rs
        | .ok (m2, cnt) =>
          match r with
          | .bad x => m2.jobRan p j 0x0409 x
          | _ => m2.jobRan p j 0 cnt

/-- A CLEAR: one slot over the whole region. -/
def Mach.clearJob (m : Mach) (j : Job) : Mach :=
  let p := 0x30
  let s := j.f 0x25 1
  match m.winnowSlice j with
  | some st => m.jobRan p j st 0x25
  | none =>
    match m.winnowBad s 0 with
    | some (m1, st, rs) => m1.jobRan p j st rs
    | none =>
      let (k, m1) := m.winnowClear s fun r => r.table == j.f 0x24 1
      (m1.winnowSlots 1).jobRan p j 0 k

/-- SEARCH (R466). -/
def execSearch (ctx : Fin 16) (s : State) : Host.Outcome State Fault Refusal :=
  s.act fun m => m.runJob 0x30 ctx 1 fun m j => m.winnowJob Job.searchItem j

/-- INSERT (R468). -/
def execInsert (ctx : Fin 16) (s : State) : Host.Outcome State Fault Refusal :=
  s.act fun m => m.runJob 0x30 ctx 2 fun m j => m.winnowJob Job.insertItem j

/-- WINNOW_DELETE (R469). -/
def execWinnowDelete (ctx : Fin 16) (s : State) : Host.Outcome State Fault Refusal :=
  s.act fun m => m.runJob 0x30 ctx 3 fun m j => m.winnowJob Job.deleteItem j

/-- WINNOW_CLEAR (R469). -/
def execWinnowClear (ctx : Fin 16) (s : State) : Host.Outcome State Fault Refusal :=
  s.act fun m => m.runJob 0x30 ctx 4 fun m j => m.clearJob j

/-! ## Power mode, bands and registers (R477, R478, R484) -/

/-- The winnow band for a temperature, from the band in force (R478). -/
def winnowBand (old : Nat) (t : Int) : Nat :=
  if 100 ≤ t then 2
  else if old = 2 ∧ 97 ≤ t then 2
  else if 90 ≤ t then 1
  else if 1 ≤ old ∧ 87 ≤ t then 1 else 0

/-- WNW_STAT as it reads. -/
def Mach.wnwStat (m : Mach) : W64 :=
  let e := m.engine 0x30
  at_ 42 m.hq.ovls.length ||| at_ 40 m.wnw.band ||| flagAt 16 m.wnw.mode ||| { e with offline := false }.stat

/-- WNW_SLREG_s as it reads. -/
def Mach.wnwSlreg (m : Mach) (s : Nat) : W64 := at_ 32 (m.region s).length ||| at_ 0 (m.regionRows s).length

/-- A read of a WNW register. -/
def Mach.wnwRead (m : Mach) (w : Who) (off : Nat) : Mach × RegOut :=
  let r := (off - 0x1000) / 8
  if w.ring = .r2 then
    (m, .value (if 0x1000 ≤ off ∧ off < 0x1800 ∧ r = w.slice then m.wnwSlreg r else 0))
  else
    let x := m.wnw
    match off with
    | 0 => (m, .value m.wnwStat)
    | 8 => (m, .value (flagAt 0 x.mode))
    | 0x10 =>
      ({ m with wnw := { x with uncorr := 0, full := 0, field := 0, other := 0 } },
       .value (at_ 48 x.uncorr ||| at_ 32 x.full ||| at_ 16 x.field ||| at_ 0 x.other))
    | 0x18 => (m, .value (w64 x.searches))
    | 0x20 => (m, .value (w64 x.updates))
    | _ => (m, .value (if 0x1000 ≤ off ∧ off < 0x1800 then m.wnwSlreg r else 0))

/-- A write to a WNW register: ring 0. -/
def Mach.wnwWrite (m : Mach) (w : Who) (off : Nat) (v : W64) : Mach × RegOut :=
  let a := wnwReg off
  let wr := fun (rsv : W64) (f : Mach → Mach) => m.writeReg w a v rsv w.zero true f
  match off with
  | 8 => wr (rsvBits [(0, 0)]) fun m => { m with wnw := { m.wnw with mode := bit v 0 } }
  | 0 => wr (rsvBits [(55, 32), (16, 0)]) id
  | 0x10 | 0x18 | 0x20 => wr 0 id
  | _ => if 0x1000 ≤ off ∧ off < 0x1800 then wr (rsvBits [(43, 32), (15, 0)]) id else wr (BitVec.allOnes 64) id

end Sys2Proof.Machine
end

