-- ==== Sys2Proof/Machine/Digest.lean ====
section
/-! DEFINITION. The digest engines, the measurement registers, the constant-time compare, and the DGS registers
(R166 to R171, R442 to R451, R458). -/

namespace Sys2Proof.Machine

/-- Address of a DGS register. -/
def dgsReg (off : Nat) : Nat := 0x200B00000 + off

/-- Quadrant of a core (R15). -/
def quadOf (c : Nat) : Nat := if isTiller c then c / 16 else (c - 64) / 2

/-- Error counts of digest engine q. -/
def Mach.dgsErr (m : Mach) (q : Nat) : DgsErr := tget DgsErr.reset m.dgs.errs q
def Mach.setDgsErr (m : Mach) (q : Nat) (v : DgsErr) : Mach := { m with dgs := { m.dgs with errs := tset m.dgs.errs q v } }

/-- The error count of a status goes up and event 608 + q is raised (R445). -/
def Mach.dgsCount (m : Mach) (h st : Nat) : Mach :=
  let e := m.dgsErr (h / 16)
  let e1 := if st = 0x0409 then { e with bus := up16 e.bus } else if st = 0x0304 then { e with alarm := up16 e.alarm }
    else { e with field := up16 e.field }
  (m.setDgsErr (h / 16) e1).raise (608 + h / 16)

/-- A context records an error status: its state is cleared (R168). -/
def Mach.dgsRecord (m : Mach) (h st : Nat) : Mach := (m.setDctx h { m.dctx h with st := [], fresh := false, err := st }).dgsCount h st

/-- A context that disagrees with its complement records INTEGRITY-ALARM, with the context alarm (R442, R597). -/
def Mach.dgsCheck (m : Mach) (h : Nat) : Mach :=
  if (m.dctx h).cplOk then m else ((m.setDctx h { m.dctx h with cplOk := true }).dgsRecord h 0x0304).alarm 4 h

/-- Is context h one that a thread may name: opened by its ring and slice (R169)? -/
def Mach.ctxFor (m : Mach) (t : Thr) (v : W64) : Option Nat :=
  let c := m.dctx v.toNat
  if v.toNat < 64 ∧ c.open_ ∧ c.forTag.isNone ∧ c.ring = t.ring ∧ (t.ring ≠ .r2 ∨ c.slice = t.slice) then some v.toNat else none

/-- Algorithm of a code (R167). -/
def algOf (n : Nat) : Option Alg :=
  match n with
  | 0 => some .sha256
  | 1 => some .sha512
  | 2 => some .sha3
  | 3 => some .hmac256
  | 4 => some .hmac512
  | _ => none

/-- The state before the next block: at the start of a digest the initial one, with the inner key block absorbed in an HMAC mode (R444). -/
def Dctx.start (c : Dctx) : List W64 :=
  if !c.fresh then c.st
  else if c.alg.keyed then c.alg.absorb c.alg.init (c.alg.keyBlock c.key 0x36) else c.alg.init

/-- Feed whole blocks. -/
def Dctx.feed (c : Dctx) (b : List Byte) : Dctx := { c with st := c.alg.absorb c.start b, fresh := false }

/-- The digest that a context gives, with the outer pass of an HMAC mode. -/
def Dctx.digest (c : Dctx) : List Byte := let d := c.alg.out c.st; if c.alg.keyed then c.alg.outer c.key d else d

/-- A digest begins afresh under the same mode. -/
def Dctx.again (c : Dctx) : Dctx := { c with st := [], fresh := true, err := 0 }

/-! ## DGS.OPEN (R167) -/

/-- A refusal of DGS.OPEN. -/
def openRefused (st : Nat) : W64 := flagAt 63 true ||| at_ 0 st

/-- Contexts of digest engine q in use, counted from 0. -/
def Mach.ctxsUsed (m : Mach) (q : Nat) : List Nat :=
  (m.dgs.ctxs.filter fun e => e.2.open_ && e.1 / 16 == q).map fun e => e.1 - 16 * q

/-- Take a context of engine q: any free one (R49); none while all are held. -/
def Mach.openCtx (m : Mach) (q : Nat) (c : Dctx) : Option (Nat × Mach) :=
  let used := m.ctxsUsed q
  if 16 ≤ used.length ∨ (m.ledger 7).free = 0 then none
  else
    let (r, m1) := m.draw (16 - used.length)
    let h := 16 * q + nthFree r 0 used
    some (h, (m1.setDctx h c).take 7 1)

/-- DGS_OPEN (R167): the mode word and the key slot are judged first; the thread holds while no context is free. -/
def execDgsOpen (c : Fin 72) (gd : BitVec 4) (rd ra : BitVec 5) (s : State) : Host.Outcome State Fault Refusal :=
  s.act fun m => m.insn c gd (.dgsOpen c gd rd ra) fun m k =>
    let t := m.thr k
    let v := t.gr ra
    let give := fun (m : Mach) (x : W64) => Res.done (m.modThr k fun t => t.gw rd x)
    match algOf (fld v 3 0) with
    | none => give m (openRefused 0x0101)
    | some g =>
      if v &&& rsvBits [(26, 16), (3, 0)] ≠ 0 then give m (openRefused 0x0101)
      else
        let slot := fld v 26 16
        let (m1, key) := if g.keyed then m.useKey slot t.ring t.slice [.hmac, .general] else (m, some true)
        match key with
        | none => give m1 (openRefused 0x0304)
        | some false => give m1 (openRefused 0x0105)
        | some true =>
          let ctx : Dctx := { Dctx.reset with open_ := true, ring := t.ring, slice := t.slice, tcb := k, alg := g,
                                              key := if g.keyed then (m1.key slot).value else 0 }
          match m1.openCtx (quadOf c) ctx with
          | none => .stay m1
          | some (h, m2) => give m2 (w64 h)

/-! ## DGS.UPDATE (R168) -/

/-- DGS_UPDATE (R168, R445): rd holds the length, ra the context, rb the address. -/
def execDgsUpdate (c : Fin 72) (gd : BitVec 4) (rd ra rb : BitVec 5) (s : State) : Host.Outcome State Fault Refusal :=
  s.act fun m => m.insn c gd (.dgsUpdate c gd rd ra rb) fun m k =>
    let t := m.thr k
    let n := (t.gr rd).toNat
    let a := (t.gr rb).toNat
    match m.ctxFor t (t.gr ra) with
    | none => .exc m 3 5 0
    | some h =>
      if n = 0 then .done m
      else match m.windowRange k .read a n with
        | some (d, p) => .exc m 3 d (w64 p)
        | none =>
          let m1 := m.dgsCheck h
          let x := m1.dctx h
          if x.err ≠ 0 then .done m1
          else if n % x.alg.block ≠ 0 then .done (m1.dgsRecord h 0x0101)
          else if (m1.rangeBus false a n).isSome then .done (m1.dgsRecord h 0x0409)
          else match m1.readBytes a n with
            | (m2, .ok b) => .done (m2.setDctx h ((m2.dctx h).feed b))
            | (m2, .wait) => .stay m2
            | (m2, _) => .done (m2.dgsRecord h 0x0409)

/-! ## DGS.FINISH (R168, R445) -/

/-- DGS_FINISH (R168): the destination's WINDOW checks, then the thread leaves its core. -/
def execDgsFinish (c : Fin 72) (gd : BitVec 4) (rd ra rb : BitVec 5) (s : State) : Host.Outcome State Fault Refusal :=
  s.act fun m => m.insn c gd (.dgsFinish c gd rd ra rb) fun m k =>
    let t := m.thr k
    let a := (t.gr rb).toNat
    match m.ctxFor t (t.gr ra) with
    | none => .exc m 3 5 0
    | some h =>
      match m.windowRange k .write a (m.dctx h).alg.size with
      | some (d, p) => .exc m 3 d (w64 p)
      | none => .stay ((m.modThr k fun t => { t with waitRd := rd, waitOn := w64 h, waitAddr := a }).leaveCore k .dgsFinish)

/-- Store a run of bytes through core c's domain, word by word. -/
def Mach.storeRun (m : Mach) (c a : Nat) (l : List Byte) : Mach :=
  (List.range (ceilDiv (a % 8 + l.length) 8)).foldl (fun m i =>
    let lo := if i = 0 then 0 else 8 * i - a % 8
    let hi := 8 * (i + 1) - a % 8
    m.coreStore c (a + lo) ((l.drop lo).take (hi - lo))) m

/-- Finish context h for thread k: the status it returns (R168, R445). None while the destination's memory is not there yet. -/
def Mach.dgsFinish (m : Mach) (k h : Nat) : Option (Mach × Nat) :=
  let m1 := m.dgsCheck h
  let x := m1.dctx h
  let t := m1.thr k
  let a := t.waitAddr
  let n := x.alg.size
  if x.err ≠ 0 then some (m1.setDctx h x.again, x.err)
  else if x.fresh then some (m1.dgsCount h 0x0101, 0x0101)
  else if (m1.rangeBus true a n).isSome then some ((m1.setDctx h x.again).dgsCount h 0x0409, 0x0409)
  else if m1.engWaits a n then none
  else some ((m1.storeRun t.core a x.digest).setDctx h x.again, 0)

/-- DGS_FINISH_DONE (R168): the thread that left its core in DGS.FINISH becomes READY with the status. -/
def execDgsFinishDone (k : Fin 4096) (s : State) : Host.Outcome State Fault Refusal :=
  s.act fun m => m.fabric fun m =>
    let t := m.thr k
    if t.state == .waiting && t.waitKind == .dgsFinish && !m.readyHeld k && m.engOn then
      match m.dgsFinish k t.waitOn.toNat with
      | none => m
      | some (m1, st) => m1.waitDone k (.value (w64 st))
    else m

/-- DGS_RELEASE (R169). -/
def execDgsRelease (c : Fin 72) (gd : BitVec 4) (ra : BitVec 5) (s : State) : Host.Outcome State Fault Refusal :=
  s.act fun m => m.insn c gd (.dgsRelease c gd ra) fun m k =>
    let t := m.thr k
    match m.ctxFor t (t.gr ra) with
    | none => .exc m 3 5 0
    | some h => .done (m.closeCtx h)

/-! ## Measurement and comparison (R170, R171) -/

/-- MREG_EXTEND (R170). -/
def execMregExtend (c : Fin 72) (gd : BitVec 4) (n ra : BitVec 5) (s : State) : Host.Outcome State Fault Refusal :=
  s.act fun m => m.insn c gd (.mregExtend c gd n ra) fun m k =>
    let t := m.thr k
    let a := (t.gr ra).toNat
    if t.ring = .r2 ∨ (t.ring = .r1 ∧ n.toNat < 4) then .exc m 2 2 0
    else if a % 8 ≠ 0 then .exc m 4 0 (t.gr ra)
    else match m.loadRange c k a 64 with
      | (m1, .fault x d xa) => .exc m1 x d xa
      | (m1, .wait) => .stay m1
      | (m1, .ok b) => .done (m1.mextend n.toNat b)

/-- CMP_CT (R171). -/
def execCmpCt (c : Fin 72) (gd : BitVec 4) (pd : BitVec 3) (size : BitVec 2) (ra rb : BitVec 5) (s : State) :
    Host.Outcome State Fault Refusal :=
  s.act fun m => m.insn c gd (.cmpCt c gd pd size ra rb) fun m k =>
    let t := m.thr k
    let a := (t.gr ra).toNat
    let b := (t.gr rb).toNat
    let n := 16 * 2 ^ size.toNat
    if a % 8 ≠ 0 then .exc m 4 0 (t.gr ra)
    else if b % 8 ≠ 0 then .exc m 4 0 (t.gr rb)
    else match (m.windowRange k .read a n).orElse fun _ => m.windowRange k .read b n with
      | some (d, p) => .exc m 3 d (w64 p)
      | none =>
        match (m.rangeBus false a n).orElse fun _ => m.rangeBus false b n with
        | some (d, p) => .exc m 5 d (w64 p)
        | none =>
          match m.loadRange c k a n with
          | (m1, .fault x d xa) => .exc m1 x d xa
          | (m1, .wait) => .stay m1
          | (m1, .ok la) =>
            match m1.loadRange c k b n with
            | (m2, .fault x d xa) => .exc m2 x d xa
            | (m2, .wait) => .stay m2
            | (m2, .ok lb) => .done (m2.modThr k fun t => t.pw pd (la == lb))

/-! ## Registers (R446, R451, R456, R458) -/

/-- Code of a usage. -/
def Usage.code : Usage → Nat
  | .seal_ => 0
  | .hmac => 1
  | .general => 2
  | .xts1 => 3
  | .xts2 => 4
  | .wrap => 5
  | .derive => 6

/-- DGS_KEY_k as it reads. -/
def Key.word (k : Key) : W64 :=
  flagAt 63 k.valid ||| at_ 60 k.usage.code ||| at_ 58 k.ring ||| flagAt 57 k.slown ||| flagAt 56 k.persist ||| at_ 48 k.slice ||| at_ 0 k.gen

/-- Bits of the contexts of engine q for which a test holds. -/
def Mach.ctxBits (m : Mach) (q : Nat) (p : Dctx → Bool) : Nat :=
  ((m.dgs.ctxs.filter fun e => e.1 / 16 == q && e.2.open_ && p e.2).map fun e => 2 ^ (e.1 % 16)).sum

/-- Word w of measurement register n as it reads (R446, R597). -/
def Mach.mregWord (m : Mach) (n w : Nat) : W64 :=
  if m.dgs.mbad.contains n then BitVec.allOnes 64 else (tget 0 m.dgs.mregs n).extractLsb' (64 * w) 64

/-- A read of a DGS register. -/
def Mach.dgsRead (m : Mach) (w : Who) (off : Nat) : Mach × RegOut :=
  if 0x4000 ≤ off ∧ off < 0x4800 then
    let n := (off - 0x4000) / 64
    let m1 := m.readMeasure n
    (m1, .value (m1.mregWord n ((off - 0x4000) / 8 % 8)))
  else if 0x8000 ≤ off ∧ off < 0xC000 then
    let k := m.key ((off - 0x8000) / 8)
    (m, .value (if w.low || (k.slown && k.slice == w.slice) then k.word else 0))
  else if !w.low then (m, .denied 1)
  else if off < 0x400 then
    let q := off / 256
    match off % 256 with
    | 0 => (m, .value (at_ 16 (m.ctxBits q fun c => c.err != 0) ||| at_ 0 (m.ctxBits q fun _ => true)))
    | 8 =>
      let e := m.dgsErr q
      (m.setDgsErr q DgsErr.reset, .value (at_ 48 e.bus ||| at_ 32 e.alarm ||| at_ 16 e.field))
    | _ => (m, .value 0)
  else (m, .value 0)

/-- A write to a DGS register other than DGS_KEYCTL: no field of them is written. -/
def Mach.dgsWrite (m : Mach) (w : Who) (off : Nat) (v : W64) : Mach × RegOut :=
  let a := dgsReg off
  if off = 0x1000 then m.keyCtl w v
  else if 0x4000 ≤ off ∧ off < 0x4800 then m.deadWrite w a v 0
  else if 0x8000 ≤ off ∧ off < 0xC000 then m.idleWrite w a v (rsvBits [(63, 48), (31, 0)])
  else if off < 0x400 ∧ off % 256 = 0 then m.idleWrite w a v (rsvBits [(31, 0)])
  else if off < 0x400 ∧ off % 256 = 8 then m.idleWrite w a v (rsvBits [(63, 16)])
  else m.idleWrite w a v (BitVec.allOnes 64)

end Sys2Proof.Machine
end

