-- ==== Sys2Proof/Machine/Scan.lean ====
section
/-! DEFINITION. The scan and fixity pipelines: spikelets, filter threads, classification, records, and VERIFY-FIXITY (chapter 14).
Each row does what it can at that moment; a row that has to wait changes nothing and may be issued again. -/

namespace Sys2Proof.Machine

/-! ## Spikelets and profiles -/

/-- Spikelet k of a command: its first block and its blocks (R486, R505). -/
def Cmd.spk (c : Cmd) (k : Nat) : Nat × Nat :=
  if c.ent.nblk = 0 then (0, 0)
  else
    let j := c.ent.lba / 16 + k
    let lo := Nat.max c.ent.lba (16 * j)
    (lo, Nat.min (c.ent.lba + c.ent.nblk) (16 * j + 16) - lo)

/-- Spikelets of a command (R486, R505). -/
def Cmd.spkCount (c : Cmd) : Nat := if c.ent.nblk = 0 then 1 else (c.ent.lba + c.ent.nblk - 1) / 16 - c.ent.lba / 16 + 1

/-- The spikelet that thread k runs on. -/
def Scan.of (s : Scan) (k : Nat) : Option (Nat × Spk) := s.spks.find? fun e => e.2.state == .running k

/-- Put a spikelet. -/
def Scan.put (s : Scan) (n : Nat) (v : Spk) : Scan := { s with spks := tset s.spks n v }

/-- Put a scan. -/
def Mach.setScan (m : Mach) (tag : Nat) (s : Scan) : Mach := { m with scans := tset m.scans tag s }

/-- The command and the scan of a tag while its outcome is open. -/
def Mach.scanOpen (m : Mach) (tag : Nat) : Option (Cmd × Scan) :=
  match m.cmd? tag, tget? m.scans tag with
  | some c, some s => if c.verdict.isNone then some (c, s) else none
  | _, _ => none

/-! ## Filter threads (R490, R505) -/

/-- A window from byte lo up to byte hi (R93). -/
def wnWord (perm lo hi : Nat) : W64 := at_ 60 perm ||| at_ 28 ((hi - 1) / 4096) ||| at_ 0 (lo / 4096)

/-- The windows of a filter thread (R490): the image, the part of program memory above it (else below it), the granary. -/
def Mach.scanWindows (m : Mach) (s : Nat) (g : Prog) : Tab W64 :=
  let d := (m.slice s).desc
  let lo := unitAddr d.pmfirst
  let hi := lo + d.pmcnt * 0x1000000
  let iend := roundUp (g.base + 64 + g.bodyLen) 4096
  let w1 := if iend < hi then [(1, wnWord 14 iend hi)] else if lo < g.base then [(1, wnWord 14 lo g.base)] else []
  [(0, wnWord 13 g.base iend)] ++ w1 ++ [(2, wnWord 14 granaryBase (granaryBase + 0x3000000))]

/-- Threads that a scan may take now: the tillers of TMASK, at most 64, and the free blocks of the sub-ledger; one for RUN. -/
def Mach.scanWidth (m : Mach) (c : Cmd) : Nat :=
  let free := (m.ledger 4).free
  match c.owner with
  | none => Nat.min 1 free
  | some s =>
    let d := (m.slice s).desc
    let w := Nat.min (((List.range 64).filter fun i => d.tmask.getLsbD i).length) (Nat.min free (d.tcbq - tget 0 m.grn.tcbOf s))
    if c.ent.nblk = 0 then Nat.min 1 w else w

/-- Allocate and set up one filter thread. -/
def Mach.filterThread (m : Mach) (c : Cmd) (g : Prog) (f : Profile) : Nat × Mach :=
  let (k, m1) := m.allocTcb c.owner
  let d := (m.slice (c.owner.getD 0)).desc
  let h := if f.handler = 0 then 0 else g.base + 64 + f.handler
  (k, m1.modThr k fun t => { t with
    mask := if c.owner.isNone then 0xFF else d.tmask
    prio := if c.owner.isNone then 0 else d.ceil
    entry := pcOf (w64 (g.base + 64 + g.entry))
    handler := pcOf (w64 h)
    wn := match c.owner with | some s => m.scanWindows s g | none => [] })

/-- Allocate n filter threads. -/
def Mach.filterThreads (c : Cmd) (g : Prog) (f : Profile) : Nat → Mach → List Nat × Mach
  | 0, m => ([], m)
  | n + 1, m =>
    let (k, m1) := m.filterThread c g f
    let (l, m2) := Mach.filterThreads c g f n m1
    (k :: l, m2)

/-- A scan with its profile and threads, nothing done. -/
def Scan.make (p : Nat) (f : Profile) (threads : List Nat) : Scan :=
  { prog := p, classify := f.classify, sealRec := f.sealRec, rstride := f.rstride, keyoff := f.keyoff, table := f.table,
    outbufs := f.outbufs, sealSlot := f.sealSlot, insnMax := f.insnMax, threads := threads, next := 0, spks := [], recs := 0,
    bytes := 0, blocks := 0, grains := [], ctx := none, rest := [] }

/-- SCAN and RUN begin: their filter threads are taken (R490). While none is free the command waits. -/
def Mach.scanBegin (m : Mach) (tag opc : Nat) : Mach :=
  match m.ready? tag opc with
  | none => m
  | some c =>
    let p := fld (c.ent.param 0) 15 0
    let w := m.scanWidth c
    if (tget? m.scans tag).isSome || w = 0 then m
    else match m.prog? c.owner p with
      | none => m
      | some g =>
        match m.profileOf g (opc == 0x09) with
        | none => m
        | some f =>
          let (l, m1) := Mach.filterThreads c g f w m
          (m1.setCmd tag { c with started := true, phase := .running }).setScan tag (Scan.make p f l)

/-! ## Stages 1 to 5 (R487, R496, R497) -/

/-- Data of the blocks that a command reads of grain x. -/
inductive GrainIn where
  /-- it is not there yet; the pages are asked for -/
  | wait (m : Mach)
  /-- it cannot be had: the status -/
  | lost (m : Mach) (status : Nat)
  | ok (m : Mach) (bytes : List Byte)

/-- Read grain (or fine block) x for a command: its pages, the pass through a cipher pair, whose check may fail, then its content (R271,
R312, R329, R432). -/
def Mach.grainIn (m : Mach) (tag : Nat) (c : Cmd) (x : Nat) (fault : Option (Fin 4)) : GrainIn :=
  let s := c.owner.getD 0
  let n := c.ent.nsid
  let fine := m.isFine s n
  let u := unitBlocks fine
  let lo := Nat.max c.ent.lba (x * u)
  let hi := Nat.min (c.ent.lba + c.ent.nblk) ((x + 1) * u)
  let k := mapKey fine s n x
  if (List.range (hi - lo)).any (fun i => m.unformed c.asn s n (lo + i)) || !m.loaded fine k then .wait m
  else if m.badEntry fine k then .lost (m.alarm 0 k) 0x0304
  else
    let keys := m.pagesFor c.asn s n x
    let m1 := keys.foldl (fun m k => m.fetchPage tag s k) m
    if !(keys.all fun k => m1.fch.got.any fun g => g.tag == tag && g.page == k) then .wait m1
    else
      let m2 := keys.foldl Mach.noteRebuild m1
      let m3 := { m2 with fch := { m2.fch with got := m2.fch.got.filter fun g => !(g.tag == tag && keys.contains g.page) } }
      let (m4, st) := if keys.isEmpty then (m3, 0) else m3.mediaPass s n fault
      if st ≠ 0 then .lost m4 st
      else match m2.contentAt (m2.pageFor tag) c.asn s n x with
        | none => .lost (m3.lostGrain s n x) 0x0300
        | some b => .ok m3 b

/-- Allocate n buffers of the pipeline (R492, R496), charged to the command's slice: owner ring 0. -/
def Mach.pipeBufs (m : Mach) (c : Cmd) (cls n : Nat) : Option (List Nat × Mach) := m.allocMany cls 0x1000 c.owner n

/-- Put a buffer's worth of data in each of a list of buffers. -/
def Mach.fillBufs (m : Mach) : List Nat → List Byte → Mach
  | [], _ => m
  | k :: t, b => Mach.fillBufs (m.putRun (bufAddr k) (b.take 4096)) t (b.drop 4096)

/-- The input of a spikelet. -/
inductive SpkIn where
  | wait (m : Mach)
  | lost (m : Mach) (status : Nat)
  /-- the buffers of its blocks, those that are its own, and its bytes -/
  | ok (m : Mach) (bufs own : List Nat) (bytes : List Byte)

/-- Fine blocks of a spikelet, one after another. -/
def Mach.fineIn (tag : Nat) (c : Cmd) (fault : Option (Fin 4)) : List Nat → Mach → List Byte → GrainIn
  | [], m, b => .ok m b
  | x :: t, m, b =>
    match m.grainIn tag c x fault with
    | .ok m1 d => Mach.fineIn tag c fault t m1 (b ++ d)
    | r => r

/-- Stages 1 to 4 for the spikelet of n blocks from block lo. -/
def Mach.spkIn (m : Mach) (tag : Nat) (c : Cmd) (s : Scan) (lo n : Nat) (fault : Option (Fin 4)) : SpkIn :=
  if n = 0 then .ok m [] [] []
  else if m.isFine (c.owner.getD 0) c.ent.nsid then
    -- every page is asked for before the first is awaited
    let ask := fun (m : Mach) (i : Nat) => match m.grainIn tag c (lo + i) none with | .wait m1 => m1 | _ => m
    match Mach.fineIn tag c fault ((List.range n).map (lo + ·)) m [] with
    | .wait _ => .wait ((List.range n).foldl ask m)
    | .lost m1 st => .lost m1 st
    | .ok m1 b =>
      match m1.pipeBufs c 3 n with
      | none => .wait m
      | some (l, m2) => .ok (m2.fillBufs l b) l l b
  else
    let x := lo / 256
    match tget? s.grains x with
    | some l =>
      let mine := (l.drop (lo % 256)).take n
      .ok m mine [] (mine.flatMap fun k => m.rawBytes (bufAddr k) 4096)
    | none =>
      match m.grainIn tag c x fault with
      | .wait m1 => .wait m1
      | .lost m1 st => .lost m1 st
      | .ok m1 b =>
        match m1.pipeBufs c 3 256 with
        | none => .wait m
        | some (l, m2) =>
          .ok ((m2.fillBufs l b).setScan tag { s with grains := tset s.grains x l }) ((l.drop (lo % 256)).take n) []
            ((b.drop (4096 * (lo % 256))).take (4096 * n))

/-- Stage 5 over a spikelet's records (R497): the result words, or none when a search meets an uncorrectable row (R482). -/
def Mach.classifyAll (m : Mach) (s : Scan) (slice : Nat) (b : List Byte) : Mach × Option (List Byte) :=
  let n := if s.classify then b.length / s.rstride else 0
  if n = 0 then (m, some [])
  else match m.winnowBad slice 0 with
    | some (m1, _, _) => (m1, none)
    | none =>
      let one := fun (r : Nat) => leBytes 8 (resultWord (m.winnow slice (w64 (leAt b (r * s.rstride + s.keyoff) 8)) s.table)).toNat
      ({ m with wnw := { m.wnw with searches := sat (2 ^ 64 - 1) (m.wnw.searches + n) } }, some ((List.range n).flatMap one))

/-- Classification buffers of a spikelet (R489). -/
def Scan.clsBufs (s : Scan) : Nat := if s.classify then ceilDiv 128 s.rstride else 0

/-- A list of 16 buffer addresses, unused ones zero (R492). -/
def bufList (l : List Nat) : List Byte := l.flatMap (fun k => leBytes 8 (bufAddr k)) ++ zeros (8 * (16 - l.length))

/-- The first 512 bytes of a spikelet's descriptor (R492). -/
def spkDesc (c : Cmd) (s : Scan) (k lo n : Nat) (inb cls outb : List Nat) : List Byte :=
  leBytes 8 k ++ leBytes 8 lo ++ leBytes 4 n ++ leBytes 4 (if s.classify then n * 4096 / s.rstride else 0) ++
  leBytes 8 (c.ent.param 1).toNat ++ zeros 96 ++ bufList inb ++ bufList cls ++ bufList outb

/-- The lines of a buffer leave the data caches of the tillers that a mask touches, and of their sheaves (R493). -/
def Mach.dropLines (m : Mach) (mask : W64) (k : Nat) : Mach :=
  let lo := bufAddr k
  let l1 := fun (e : Nat × Cache) => if isTiller e.1 && mask.getLsbD e.1 then (e.1, e.2.drop lo (lo + 4096)) else e
  let sh := fun (e : Nat × Cache) => if (sheavesOf mask).contains e.1 then (e.1, e.2.drop lo (lo + 4096)) else e
  { m with cch := { m.cch with l1d := m.cch.l1d.map l1, sheaf := m.cch.sheaf.map sh } }

/-! ## Starting a spikelet (R491 to R493) -/

/-- Is thread k free to take a spikelet: set up and not started, or WAITING behind the spikelet it ended? -/
def Mach.filterFree (m : Mach) (s : Scan) (k : Nat) : Bool :=
  let t := m.thr k
  s.threads.contains k && (s.of k).isNone && (t.state == .idle || (t.state == .waiting && t.waitKind == .waitwork)) && !m.readyHeld k

/-- START for a thread's first spikelet, STOP and RESTART for a later one (R491): the code of the start, and the machine. -/
def Mach.filterStart (m : Mach) (k a : Nat) : Nat × Mach :=
  let w : Who := { ring := .r0, slice := 0, tcb := 0, dbg := false }
  let m1 := if (m.thr k).state = .waiting then m.stopQuiet k else m
  let m2 := m1.modThr k fun t => { t with arg := w64 a }
  (m2.startCode w k, (m2.modThr k fun t => { t with xrec := 0 }).startBlock w k)

/-- Has some spikelet failed? -/
def Scan.failing (s : Scan) : Bool := s.spks.any fun e => match e.2.state with | .failed _ _ => true | _ => false

/-- The spikelet is recorded as failed; it decides when every earlier record is written. -/
def Mach.spkLost (m : Mach) (tag : Nat) (s : Scan) (status : Nat) (sp : Spk) : Mach :=
  m.setScan tag { (s.put s.next { sp with state := .failed status 0 }) with next := s.next + 1 }

/-- The buffers of a spikelet beside its input: descriptor and output of class PROGRAM, classification of class ENGINE. -/
def Mach.spkBufs (m : Mach) (c : Cmd) (s : Scan) : Option (List Nat × List Nat × Mach) :=
  match m.pipeBufs c 5 (1 + s.outbufs) with
  | none => none
  | some (l, m1) =>
    match m1.pipeBufs c 4 s.clsBufs with
    | none => none
    | some (q, m2) => some (l, q, m2)

/-- The next spikelet of a scan is prepared, and thread k starts on it. -/
def Mach.spkStart (m : Mach) (tag k : Nat) (fault : Option (Fin 4)) : Mach :=
  match m.scanOpen tag with
  | none => m
  | some (c, s) =>
    if c.stopReq.isSome || s.failing || decide (c.spkCount ≤ s.next) || !m.filterFree s k then m
    else
      let (lo, n) := c.spk s.next
      match m.spkBufs c s with
      | none => m
      | some (l, q, m0) =>
        let none_ : Spk := { state := .failed 0 0, dbuf := l.headD 0, inb := [], cls := q, outb := l.drop 1 }
        match m0.spkIn tag c s lo n fault with
        -- nothing is taken while the input is awaited; the pages are asked for
        | .wait _ => (match m.spkIn tag c s lo n none with | .wait m1 => m1 | _ => m)
        | .lost m1 st => m1.spkLost tag s st none_
        | .ok m1 inb own b =>
          let s1 := (tget? m1.scans tag).getD s
          let sl := c.owner.getD 0
          let sp := { none_ with inb := own }
          match m1.classifyAll s sl b with
          | (m2, none) => m2.spkLost tag s1 0x0409 sp
          | (m2, some words) =>
            let m3 := (m2.fillBufs q words).putRun (bufAddr sp.dbuf) (spkDesc c s s.next lo n inb q sp.outb)
            let mask := (m3.slice sl).desc.tmask
            let m4 := if c.owner.isSome then (sp.dbuf :: (inb ++ q ++ sp.outb)).foldl (fun m b => m.dropLines mask b) m3 else m3
            let (code, m5) := m4.filterStart k (bufAddr sp.dbuf)
            if code = 0 then m5.setScan tag { (s1.put s.next { sp with state := .running k }) with next := s.next + 1 }
            else m4.spkLost tag s1 0x0105 sp

/-! ## The end of a spikelet (R494, R496, R500) -/

/-- The record's 16-byte header (R499). -/
def recHeader (n len : Nat) (sealed : Bool) : List Byte := leBytes 8 n ++ leBytes 4 len ++ [if sealed then 1 else 0] ++ zeros 3

/-- Stages 7 and 8: the record of spikelet n with output b, or the status that the seal ends in (R452, R500, R502). -/
def Mach.recordOf (m : Mach) (c : Cmd) (s : Scan) (n : Nat) (iv b : List Byte) (fault : Option (Fin 4)) :
    Mach × Except Nat (List Byte) :=
  if s.sealRec && !b.isEmpty then
    match m.useKey s.sealSlot (ownerRing c.owner) (c.owner.getD 0) [.general] with
    | (m1, none) => (m1, .error 0x0304)
    | (m1, some false) => (m1, .error 0x0105)
    | (m1, some true) =>
      match fault with
      | some q => (m1.unitFault (.cipher q), .error 0x0407)
      | none =>
        let key := (m1.key s.sealSlot).value
        let h := recHeader n b.length true
        let e := gcmCrypt key iv b
        (m1, .ok (pad16 (h ++ e ++ gcmTag key iv h e)))
  else (m, .ok (pad16 (recHeader n b.length false ++ b)))

/-- A filter thread that wrote an OUTLEN beyond its buffers stops as R112 stops a thread, with detail 1 (R494, R502). -/
def Mach.overrun (m : Mach) (k : Nat) : Mach :=
  let ev := match (m.thr k).ring with | .r2 => 880 | .r1 => 881 | .r0 => 882
  Mach.raise (m.modThr k fun t => { t with state := .stopped, waitKind := .none, stopPend := false, xrec := at_ 8 1 }) ev

/-- The output of a spikelet, buffer by buffer (R492): none where a stored word is uncorrectable. -/
def Mach.outBytes (m : Mach) : List Nat → Nat → Mach × Option (List Byte)
  | [], _ => (m, some [])
  | k :: t, n =>
    if n = 0 then (m, some [])
    else match m.readBytes (bufAddr k) (Nat.min n 4096) with
      | (m1, .ok b) =>
        (match Mach.outBytes m1 t (n - 4096) with
         | (m2, some l) => (m2, some (b ++ l))
         | r => r)
      | (m1, _) => (m1, none)

/-- The pipeline takes the output of spikelet n, which thread k ended with its WAITWORK. -/
def Mach.spkTake (m : Mach) (tag k : Nat) (c : Cmd) (s : Scan) (n : Nat) (sp : Spk) (fault : Option (Fin 4)) : Mach :=
  let fail := fun (m : Mach) (st low : Nat) => m.setScan tag (s.put n { sp with state := .failed st low })
  match m.readBytes (bufAddr sp.dbuf) 64 with
  | (m1, .ok d) =>
    let len := leAt d 0x20 4
    if 4096 * s.outbufs < len then (fail m1 0x0408 256).overrun k
    else match m1.outBytes sp.outb len with
      | (m2, none) => fail m2 0x0300 0
      | (m2, some b) =>
        match m2.recordOf c s n ((d.drop 0x28).take 12) b fault with
        | (m3, .error st) => fail m3 st 0
        | (m3, .ok r) => m3.setScan tag (s.put n { sp with state := .output r })
  | (m1, _) => fail m1 0x0300 0

/-- The end of the spikelet that thread k runs on: its WAITWORK, or its stop by command. -/
def Mach.spkEnd (m : Mach) (tag k : Nat) (fault : Option (Fin 4)) : Mach :=
  match m.scanOpen tag with
  | none => m.settle
  | some (c, s) =>
    match s.of k with
    | none => m
    | some (n, sp) =>
      let t := m.thr k
      if t.state == .waiting && t.waitKind == .waitwork then m.spkTake tag k c s n sp fault
      else if t.state == .stopped then m.setScan tag (s.put n { sp with state := .failed 0x0408 (fld t.xrec 15 0) })
      else m

/-! ## Records (R499, R501 to R503) -/

/-- The scan ends: its threads stop where they run, and its completion follows once they have left their cores (R502, R503). -/
def Mach.scanEnd (m : Mach) (tag : Nat) (s : Scan) (status result : Nat) : Mach :=
  (s.threads.foldl Mach.stopBlock m).decide_ tag status result

/-- The buffers of a written spikelet, and its grain when no spikelet of it is left, go back (R487). -/
def Mach.spkFree (m : Mach) (tag : Nat) (c : Cmd) (s : Scan) (n : Nat) (sp : Spk) : Mach :=
  let (lo, cnt) := c.spk n
  let x := lo / 256
  let last := (c.spk (n + 1)).1 / 256 != x || decide (c.spkCount ≤ n + 1)
  let gone := if last && cnt != 0 then tget [] s.grains x else []
  let s1 := { s with spks := tdel s.spks n, grains := if last then tdel s.grains x else s.grains }
  (m.releaseAll (sp.bufs ++ gone)).setScan tag s1

/-- The record of the next spikelet is written, or that spikelet decides the command. -/
def Mach.recordWrite (m : Mach) (tag : Nat) : Mach :=
  match m.scanOpen tag with
  | none => m.settle
  | some (c, s) =>
    match tget? s.spks s.recs with
    | none => m
    | some sp =>
      match sp.state, c.stopReq with
      | .output b, stop =>
        if c.ent.dlen < s.bytes + b.length then
          (match stop with
           | some st => m.scanEnd tag s st s.blocks
           | none => m.scanEnd tag s 0x0400 s.bytes)
        else
          let s1 := { s with recs := s.recs + 1, bytes := s.bytes + b.length, blocks := s.blocks + (c.spk s.recs).2 }
          let m1 := (m.sendData tag c s.bytes b).spkFree tag c s1 s.recs sp
          if s1.recs = c.spkCount then m1.scanEnd tag s1 0 s1.bytes
          else (match stop with
            | some st => m1.scanEnd tag s1 st s1.blocks
            | none => m1)
      | .failed _ _, some st => m.scanEnd tag s st s.blocks
      | .failed st low, none =>
        if st = 0x0105 ∨ st = 0x0409 then let r := m.openRs; r.2.scanEnd tag s st r.1
        else m.scanEnd tag s st (if st = 0x0408 then low + 2 ^ 16 * s.bytes else s.bytes)
      | .running _, _ => m

/-! ## VERIFY-FIXITY (R504) -/

/-- Open the digest context of a VERIFY-FIXITY: of the lowest-numbered quadrant that has a free one. -/
def Mach.fixityOpen (m : Mach) (tag : Nat) (c : Cmd) : Mach :=
  let ctx : Dctx := { Dctx.reset with open_ := true, alg := (algOf (fld (c.ent.param 0) 3 0)).getD .sha256, forTag := some tag }
  match (List.range 4).findSome? fun q => m.openCtx q ctx with
  | none => m
  | some (h, m1) =>
    let f : Profile := { classify := false, sealRec := false, rstride := 0, keyoff := 0, table := 0, outbufs := 0, sealSlot := 0,
                         insnMax := 0, handler := 0 }
    let s := Scan.make 0 f []
    (m1.setCmd tag { c with started := true, phase := .running }).setScan tag { s with ctx := some h }

/-- Feed bytes into the context, whole blocks of the digest at a time. -/
def Mach.fixityFeed (m : Mach) (s : Scan) (h : Nat) (b : List Byte) : Mach × Scan :=
  let x := m.dctx h
  let all := s.rest ++ b
  let n := all.length / x.alg.block * x.alg.block
  (m.setDctx h (x.feed (all.take n)), { s with rest := all.drop n })

/-- The range is digested: padding, comparison, end. -/
def Mach.fixityDone (m : Mach) (tag : Nat) (c : Cmd) (s : Scan) (h : Nat) : Mach :=
  let x := m.dctx h
  let (m1, _) := m.fixityFeed s h (x.alg.padding 0 (4096 * c.ent.nblk))
  match m1.bufData c.bufs with
  | (m2, none) => m2.decide_ tag 0x0300 s.blocks
  | (m2, some b) => m2.decide_ tag (if b.take c.ent.dlen == (m1.dctx h).digest then 0 else 0x0401) c.ent.nblk

/-- VERIFY-FIXITY goes on: it opens its context, digests the next grain, or ends. -/
def Mach.fixity (m : Mach) (tag : Nat) (fault : Option (Fin 4)) : Mach :=
  match m.ready? tag 0x06 with
  | none => m
  | some c =>
    match tget? m.scans tag with
    | none => if c.phase = .dataReady then m.fixityOpen tag c else m
    | some s =>
      let h := s.ctx.getD 0
      let m0 := m.dgsCheck h
      if (m0.dctx h).err ≠ 0 then m0.decide_ tag 0x0304 s.blocks
      else
        let u := unitBlocks (m.isFine (c.owner.getD 0) c.ent.nsid)
        let at_ := c.ent.lba + s.blocks
        let x := at_ / u
        match m0.grainIn tag c x fault with
        | .wait m1 => m1
        | .lost m1 st => m1.decide_ tag st s.blocks
        | .ok m1 b =>
          let n := Nat.min (c.ent.lba + c.ent.nblk) ((x + 1) * u) - at_
          let (m2, s1) := m1.fixityFeed s h ((b.drop (4096 * (at_ - x * u))).take (4096 * n))
          let s2 := { s1 with blocks := s.blocks + n }
          if s2.blocks = c.ent.nblk then (m2.setScan tag s2).fixityDone tag c s2 h else m2.setScan tag s2

/-! ## Rows -/

/-- SCAN (R490): the command takes its filter threads. -/
def execScan (tag : Fin 65536) (s : State) : Host.Outcome State Fault Refusal := s.onCommand tag fun m => m.scanBegin tag 0x07

/-- RUN (R505): the command takes its thread. -/
def execRun (tag : Fin 65536) (s : State) : Host.Outcome State Fault Refusal := s.onCommand tag fun m => m.scanBegin tag 0x09

/-- SPIKELET_START (R491): the next spikelet's buffers are filled, their lines invalidated, and thread k starts on it. `fault` is the pair, if
any, that meets a difference in stage 3 (R502). -/
def execSpikeletStart (tag : Fin 65536) (k : Fin 4096) (fault : Option (Fin 4)) (s : State) : Host.Outcome State Fault Refusal :=
  s.onCommand tag fun m => m.spkStart tag k fault

/-- SPIKELET_END (R491): the pipeline takes the output of the spikelet that thread k ended. `fault` is the pair, if any, that meets a
difference in stage 8 (R502). -/
def execSpikeletEnd (tag : Fin 65536) (k : Fin 4096) (fault : Option (Fin 4)) (s : State) : Host.Outcome State Fault Refusal :=
  s.onCommand tag fun m => m.spkEnd tag k fault

/-- RECORD_WRITE (R499): the next record is sent, whole. -/
def execRecordWrite (tag : Fin 65536) (s : State) : Host.Outcome State Fault Refusal :=
  s.onCommand tag fun m => m.recordWrite tag

/-- VERIFY_FIXITY (R504): the next part of the range is digested, with a fault of its decryption as for SPIKELET_START. -/
def execVerifyFixity (tag : Fin 65536) (fault : Option (Fin 4)) (s : State) : Host.Outcome State Fault Refusal :=
  s.onCommand tag fun m => m.fixity tag fault

end Sys2Proof.Machine
end

