-- ==== Sys2Proof/Machine/Boot.lean ====
section
/-! DEFINITION. Module reset and boot: what survives a reset, lowering of read-out protection, the choice of a bank, the measurements,
and the start of the base firmware (chapter 17; R534, R568 to R579). -/

namespace Sys2Proof.Machine

/-! ## What a reset leaves -/

/-- Array operations cut short leave contents that nothing fixes (R568). -/
def Mach.cutArray (m : Mach) : Mach :=
  let cut := fun (m : Mach) (o : FwaOp) => m.blur (fwaBase + o.span.1) o.span.2
  let m1 := match m.fwa.op with | some o => cut m o | none => m
  match m.fwa.susp with | some o => cut m1 o | none => m1

/-- The firmware array block after reset: fuses and the record log's books stand. -/
def Fwa.cold (f : Fwa) : Fwa :=
  { Fwa.reset with raise := f.raise, lowreq := f.lowreq, lowdone := f.lowdone, sealed := f.sealed, seq := f.seq, retired := f.retired,
                   trained := f.trained }

/-- The flash block after reset: the dies keep their commissioning record and their verified pages; what was in progress is lost. -/
def Fch.cold (f : Fch) : Fch :=
  let die := fun (e : Nat × Die) =>
    (e.1, { e.2 with state := .absent, suspN := 0, queue := [], cur := none, susp := none, past := 0, resetAt := none, tokBad := false })
  let known := f.dies.filter fun e => match e.2.state with | .inService | .failed | .unavailable => true | _ => false
  let again := f.dies.filter fun e => e.2.state == .absent
  { Fch.reset with dies := if known.isEmpty then again else known.map die, pages := f.pages.filter fun p => p.2.verified }

/-- Durable journal records, oldest first. -/
def Map.durable (p : Map) : List JRec := p.jdone.flatMap (·.recs)

/-- The seals that the durable SEAL records leave (R347). -/
def Map.replaySeals (p : Map) : List Nat × Bool :=
  p.durable.foldl (fun s r =>
    if r.typ ≠ 0xC then s
    else if bit r.w1 1 then (s.1, bit r.w1 0)
    else
      let k := 16 * r.slice + r.ns
      (if bit r.w1 0 then (if s.1.contains k then s.1 else s.1 ++ [k]) else s.1.filter (· != k), s.2)) ([], false)

/-- The last durable TIME record: its time base and its shelf time (R349). -/
def Map.replayTime (p : Map) : Option (Nat × Nat) :=
  ((p.durable.filter fun r => r.typ == 0xD).getLast?).map fun r => (r.w2.toNat, r.w3.toNat)

/-- Images and slots that stand in closed stripes at the moment of the loss (R335): those landed, and those whose last page has just
been verified. -/
def Mach.landedImgs (m : Mach) : List Img :=
  m.map.imgs ++ (m.map.work.filter fun g => g.issued && !g.landed && g.kind != .zero && m.allClosed g).map WGrain.img

/-- Does a fine slot count: does every slot of its write for its grain of 256 blocks stand in closed stripes (R274, R335)? -/
def Mach.slotWhole (m : Mach) (all : List Img) (g : Img) : Bool :=
  !g.fine || m.hq.cmds.all fun e =>
    let c := e.2
    !(writes c.ent.opc && c.asn == g.asn && c.owner == some g.slice && c.ent.nsid == g.ns && g.boot == m.map.boot) ||
      (List.range c.ent.nblk).all fun i =>
        let b := c.ent.lba + i
        b / 256 != g.grain / 256 || all.any (fun h => h.fine && h.asn == g.asn && h.boot == g.boot && h.slice == g.slice && h.ns == g.ns && h.grain == b)

/-- What the media keep (R336): sets, images in closed stripes, the durable journal, checkpoints, the defect table. -/
def Mach.coldMap (m : Mach) : Map :=
  let p := m.map
  let all := m.landedImgs
  let s := p.replaySeals
  { Map.reset with
    sets := p.sets, imgs := all.filter fun g => m.slotWhole all g, jdone := p.jdone, jsn := p.jsnDone, jsnDone := p.jsnDone
    lwm := p.lwm, lsn := p.lsn, ckpts := p.ckpts, ckptSegs := p.ckptSegs, seals := s.1, modSeal := s.2, defects := p.defects
    defGen := p.defGen, timeRec := p.replayTime, rooted := p.rooted }

/-- The machine right after a module reset (R32, R446, R509, R568): fuses, the array, the media, slice records and the key store stand;
everything else takes its reset value. -/
def Mach.cold (m0 : Mach) : Mach :=
  let m := m0.cutArray
  let inArray := fun (a : Nat) => decide (fwaBase ≤ a) && decide (a < fwaBase + 0x2000000)
  { Mach.reset with
    sys := { Sys.reset with grade := m.sys.grade }
    slc := { Slc.reset with recs := m.slc.recs }
    map := m.coldMap
    fch := m.fch.cold
    dgs := { Dgs.reset with store := m.dgs.store }
    fwa := m.fwa.cold
    pwr := { Pwr.reset with railLast := m.pwr.railLast }
    lands := m.lands
    dbg := { Dbg.reset with frzPin := m.dbg.frzPin }
    mem := { cells := m.mem.cells.filter (fun e => inArray e.1), chk := m.mem.chk.filter (fun e => inArray e.1), tags := [] }
    free := m.free }

/-! ## Boot steps 2 to 4 (R450, R453, R534, R573 to R576) -/

/-- A system key slot. -/
def sysKey (v : BitVec 256) (u : Usage) : Key := { Key.reset with value := v, valid := true, usage := u }

/-- Slots 0, 1 and 5 from fuses, slot 6 derived from slot 0 (R450, R453). -/
def Mach.fuseKeys (m : Mach) : Mach :=
  let root := Config.fuseKey 0
  (((m.setKey 0 (sysKey root .derive)).setKey 1 (sysKey (Config.fuseKey 1) .seal_)).setKey 5 (sysKey (Config.fuseKey 5) .wrap)).setKey 6
    (sysKey (keyOf (Alg.mac .hmac256 root (ascii "HK96STOR"))) .wrap)

/-- The checkers' self-test has run (R534); `bad` names the failing checkers by class and unit, the first met first. -/
def Mach.selfTest (m : Mach) (bad : List (Fin 8 × Fin 256)) : Mach :=
  { m with ecc := { m.ecc with stDone := true, stFail := !bad.isEmpty, stCls := (bad.head?.map fun b => b.1.val).getD 0,
                               stUnit := (bad.head?.map fun b => b.2.val).getD 0, stNfail := Nat.min 255 bad.eraseDups.length } }

/-- Does a failing checker serve a unit of limp mode: the granary, the firmware array, or the caches of culm 0 (R534, R578)? -/
def servesLimp (b : Fin 8 × Fin 256) : Bool := b.1 == 0 || b.1 == 2 || (b.1 == 3 && b.2 == 64) || b.1 == 7

/-- Lowering of read-out protection (R571 to R573): granary, DRAM and both banks are erased, and a LOWDONE fuse is burned. -/
def Mach.lowering (m : Mach) : Mach :=
  let m1 := (m.zero granaryBase (granaryBase + 0x3000000)).eraseRange fwaBase 0x2000000
  let f := m1.fwa
  Mach.raise { m1 with fwa := { f with lowdone := f.lowdone + 1, seq := 0, retired := [], trained := [] }
                       dgs := { m1.dgs with store := [] }
                       map := { m1.map with rooted := false } } 777

/-- The boot record (R576). -/
def bootRecord (bank level : Nat) (failover : Bool) (cause : Nat) (image : W64) (seq : Nat) : List Byte :=
  leBytes 1 bank ++ leBytes 1 level ++ leBytes 1 (if failover then 1 else 0) ++ leBytes 1 cause ++ zeros 4 ++ leBytes 8 image.toNat ++
  leBytes 8 seq ++ zeros 40

/-- mreg1 is extended with the boot record, which log 0x50 keeps. -/
def Mach.recordBoot (m : Mach) (b : List Byte) : Mach := Mach.mextend { m with fwa := { m.fwa with bootRec := b } } 1 b

/-- Boot ends in limp mode (R576, R577). -/
def Mach.bootLimp (m : Mach) (cause seq : Nat) : Mach := (m.recordBoot (bootRecord 0xFF m.fwa.level false cause 0 seq)).enterLimp cause

/-- The image of a bank is measured into mreg0 (R575). -/
def Mach.measureBank (m : Mach) (b : Nat) : Mach := m.mextend 0 (measure (m.bankBytes b))

/-- The base firmware starts at ENTRY of its image on culm 0, under a thread control block of its own. -/
def Mach.startBase (m : Mach) (b : Nat) : Mach :=
  let (k, m1) := m.allocTcb none
  let entry := pcOf (w64 (bankBase b + 64 + m.peekLe (bankBase b + 12) 4))
  let ldc := bit (w64 (m.peekLe (bankBase b + 7) 1)) 0
  let m2 := m1.modThr k fun t => { t with state := .running, ring := .r0, ldc := ldc, mask := 0xFF, prio := 0, curPrio := 0, entry := entry,
                                          pc := entry, core := 64 }
  m2.setCore 64 { thr := some k, halted := false, off := false, asking := false, since := m2.tb }

/-- Boot step 5: the ranks that RETIRE records name are retired, the others start training (R547, R550). -/
def Mach.initDram (m : Mach) : Mach :=
  let m1 := m.fwa.retired.foldl (fun m r => m.setRank r { m.rank r with state := .retired, serves := none }) m
  ((List.range 5).foldl (fun m r => if (m.rank r).state = .off then m.setRank r { m.rank r with state := .training } else m) m1).settleRanges

/-- The image of bank b runs (R574 step 5 to 6, R576). -/
def Mach.runImage (m : Mach) (b seq : Nat) (failover : Bool) : Mach :=
  let img := m.bankImage b
  let m1 := m.recordBoot (bootRecord b m.fwa.level failover 0 img seq)
  let m2 : Mach := { m1 with fwa := { m1.fwa with bank := b, failover := failover, image := img } }
  ((m2.startBase b).initDram).bootStep 5

/-- The boot ROM chooses a bank (R575). -/
def Mach.chooseBank (m : Mach) : Mach :=
  let sel := m.newestSelect.map (·.2)
  let seq := (sel.map fun r => leAt r 8 8).getD 0
  let trial := (sel.map fun r => leAt r 0x21 1 == 2).getD false
  let first := match sel with
    | none => 0
    | some r => if trial then leAt r 0x22 1 % 2 else leAt r 0x20 1 % 2
  let m1 := (if trial then m.raise 776 else m).measureBank first
  if m1.bankGood first then
    let m2 := m1.runImage first seq false
    if trial then m2.appendSelect first 1 first else m2
  else
    let other := 1 - first
    let m2 := m1.measureBank other
    if m2.bankGood other then ((m2.runImage other seq true).raise 774).appendSelect other 1 other else m2.bootLimp 1 seq

/-- Boot steps 2 to 5 (R574): regulators up, self-test and keys, the boot ROM, the base firmware. -/
def Mach.boot (m : Mach) (bad : List (Fin 8 × Fin 256)) : Mach :=
  let on := (List.range 4).foldl (fun m q => m.setVccq q { Vccq.reset with en := true }) m
  let m1 := ({ on with pwr := { on.pwr with railsGood := true } } : Mach).bootStep 2
  let m2 := (((m1.selfTest bad).fuseKeys).bootStep 3)
  let m3 : Mach := { m2 with fwa := { m2.fwa with sense := senseNeed m2.pwr.level (hottest m2.pwr.tempQ) } }
  if !bad.isEmpty then
    let m4 := (m3.bootLimp 2 0).bootStep 4
    if bad.any servesLimp then m4.setCore 64 { Core.reset with off := true, asking := false } else m4
  else
    let m4 := m3.bootStep 4
    if m4.fwa.lowdone < m4.fwa.lowreq then (m4.lowering).bootLimp 4 0 else m4.chooseBank

/-- Has the module booted since its reset? -/
def Mach.booted (m : Mach) : Bool := !m.fwa.bootRec.isEmpty

/-- A freeze entry starts at the first source sampled (R604, R605). -/
def Mach.freezeEnter (m : Mach) : Mach :=
  if m.dbg.frozen || m.dbg.entering then m
  else { m with dbg := { m.dbg with entering := true, entryAt := m.tb, frzNand := [] } }

/-! ## Fuses (R572, R573, R588) -/

/-- A fuse write that the supply no longer holds: LOWER burns its fuse and resets the module (R573). -/
def Mach.burnNow (m : Mach) (n : Nat) : Mach := if n = 3 then (m.burn 3).cold else m.burn n

/-- A fuse write: held below the inhibit threshold, with event 772 (R567). -/
def Mach.fuseWrite (m : Mach) (n : Nat) : Mach :=
  if m.inhibited then Mach.raise { m with fwa := { m.fwa with heldFuse := m.fwa.heldFuse ++ [n] } } 772 else m.burnNow n

/-- A write to FWA_RDP_CTL: ring 0 (R572). -/
def Mach.rdpCtl (m : Mach) (w : Who) (v : W64) : Mach × RegOut :=
  let op := fld v 63 60
  let n := if op = 1 then 1 else if op = 2 then 2 else if op = 3 then 3 else 0
  m.writeReg w (fwaReg 0x28) v (rsvBits [(63, 60)]) w.zero (m.fwa.fuseOk n) fun m => m.fuseWrite n

/-- A write of an FWA register. -/
def Mach.fwaWrite (m : Mach) (w : Who) (off : Nat) (v : W64) : Mach × RegOut :=
  let a := fwaReg off
  match off with
  | 0x00 => m.fwaCmd w v
  | 0x08 => m.writeReg w a v (rsvBits [(39, 0)]) w.zero true fun m => { m with fwa := { m.fwa with src := fld v 39 0 } }
  | 0x10 => m.deadWrite w a v (rsvBits [(63, 61), (59, 56), (47, 32), (24, 0)])
  | 0x18 => m.writeReg w a v (rsvBits [(3, 0)]) w.zero true fun m => { m with fwa := { m.fwa with sense := fld v 3 0 } }
  | 0x20 => m.deadWrite w a v (rsvBits [(63, 62), (12, 0)])
  | 0x28 => m.rdpCtl w v
  | 0x30 => m.deadWrite w a v (rsvBits [(63, 56), (47, 0)])
  | 0x38 => m.bootCtl w v
  | 0x40 => m.deadWrite w a v 0
  | _ => m.deadWrite w a v (BitVec.allOnes 64)

/-! ## Commands -/

/-- MODULE_RESET (R574, R584): VIN is valid, or nRESET has risen: the module leaves reset and boots. FRZ_N held low takes effect at the
end of boot step 2 (R625). -/
def execModuleReset (mv : Nat) (bad : List (Fin 8 × Fin 256)) (s : State) : Host.Outcome State Fault Refusal :=
  s.act fun m =>
    if m.lands.nresetLow || m.pwr.hotReset || m.booted || decide (mv < 2700) then m
    else
      let m1 := Mach.boot { m with pwr := { m.pwr with noVin := false, vinMv := mv } } bad
      if m1.dbg.frzPin then m1.freezeEnter else m1

/-- NRESET (R611, R625): nRESET held low resets the module, frozen or not; its rise lets it boot. -/
def execNreset (low : Bool) (s : State) : Host.Outcome State Fault Refusal :=
  s.act fun m =>
    if low then let c := m.cold; { c with lands := { c.lands with nresetLow := true }, pwr := { c.pwr with noVin := m.pwr.noVin, hotReset := m.pwr.hotReset } }
    else { m with lands := { m.lands with nresetLow := false } }

/-- RDP_RAISE (R572). -/
def execRdpRaise (w : Who) (s : State) : Host.Outcome State Fault Refusal := s.access fun m => m.rdpCtl w (at_ 60 1)
/-- RDP_SEAL (R572). -/
def execRdpSeal (w : Who) (s : State) : Host.Outcome State Fault Refusal := s.access fun m => m.rdpCtl w (at_ 60 2)
/-- RDP_LOWER (R573). -/
def execRdpLower (w : Who) (s : State) : Host.Outcome State Fault Refusal := s.access fun m => m.rdpCtl w (at_ 60 3)

/-- FLIT_TRANSMIT (R226); in limp mode the transmission of an activation's completion resets the module (R578). -/
def execFlitTransmit (cls : Fin 4) (s : State) : Host.Outcome State Fault Refusal :=
  s.act fun m => m.fabric fun m =>
    let m1 := m.transmit cls
    let leave := m1.fwa.limp && m1.fwa.act.any fun a => a.phase == .leaving && !(m1.hq.cqes.any fun c => c.tag == some a.tag)
    if leave then m1.cold else m1

end Sys2Proof.Machine
end

