-- ==== Sys2Proof/Machine/Supply.lean ====
section
/-! DEFINITION. Supply, hold windows, rails, temperature, integrity-alarm recovery, and the PWR and TMB registers (chapter 18; R26 to
R29, R35, R36, R478). -/

namespace Sys2Proof.Machine

/-- Address of a PWR register. -/
def pwrReg (off : Nat) : Nat := 0x201100000 + off

/-! ## Held operations (R588 to R590) -/

/-- Is it an operation that a die queue holds below the inhibit threshold? -/
def DieOp.risky (op : DieOp) : Bool := op.kind != .read

/-- Would the suspended erase of a die resume now but for the supply (R376)? -/
def Die.resumes (v : Die) (maxReads : Nat) : Bool :=
  v.susp.isSome && v.cur.isNone && (decide (maxReads ≤ v.past) || !v.readWaits)

/-- Does a slice command wait for its record (R299, R300)? -/
def Mach.recordWaits (m : Mach) : Bool :=
  let s := m.slc.cmdSlice
  m.slc.busy && (((m.slice s).state == .creating && (tget? m.slc.recs s).isNone) || ((m.slice s).state == .live && m.slc.cmdOp == 2))

/-- The FIRMWARE-STAGE command whose array programs wait for the supply. -/
def Mach.stageWaits (m : Mach) : Option Nat :=
  (m.hq.cmds.find? fun e => e.2.ent.opc == 0xD && e.2.phase == .dataReady && !m.firmwareBefore e.2).map (·.1)

/-- Operations held now (PWR_HOLD_HELD). -/
def Mach.heldCount (m : Mach) : Nat :=
  let one := fun (b : Bool) => if b then 1 else 0
  if !m.inhibited then 0
  else
    (m.fch.dies.map fun d => (d.2.queue.filter DieOp.risky).length + one (d.2.resumes m.fch.maxReads)).sum + m.map.jqueue.length +
      one m.fwa.heldCmd.isSome + one m.fwa.suspSag + m.dgs.held.length + m.fwa.heldFuse.length + one m.recordWaits +
      one m.stageWaits.isSome + one m.drc.migrating.isSome

/-- The held operations issue in their original order, once nothing inhibits them any more (R589, R596). -/
def Mach.holdIssue (m : Mach) : Mach :=
  let m1 := (m.fwaRecover).keysRecover
  m1.fwa.heldFuse.foldl (fun m n => if m.fwa.fuseOk n then m.burnNow n else m) { m1 with fwa := { m1.fwa with heldFuse := [] } }

/-! ## The end of a hold window (R590) -/

/-- Stripes whose landing programs are held: set, stripe and page. -/
def Mach.heldLandings (m : Mach) : List (Nat × Nat × Nat) :=
  m.fch.dies.flatMap fun d => d.2.queue.filterMap fun op =>
    match op.why with
    | .land _ =>
      let k := pageKey d.1 op.block op.page
      (m.setOfKey k).map fun x => (x.1, x.2.2.1, k)
    | _ => none

/-- A grain whose landing is given up leaves the write path; its command ends with SUPPLY-LOW. -/
def Mach.grainLost (m : Mach) (g : WGrain) : Mach :=
  let m1 := Mach.releaseAll { m with map := { m.map with work := m.map.work.filter (· != g) } } g.bufs
  match m1.cmd? g.tag with
  | none => m1
  | some c =>
    if c.asn ≠ g.asn then m1
    else
      let r := m1.openRs
      if c.stopReq.isSome && c.stopReq != some 0x0200 then m1
      else r.2.setCmd g.tag { c with verdict := some (0x0303, r.1), stopReq := some (c.stopReq.getD 0x0303) }

/-- Held landing programs fail: their grains are entirely old, and their stripes can close no more. -/
def Mach.landingsFail (m : Mach) : Mach :=
  let held := m.heldLandings
  let hit := fun (n k : Nat) => held.any fun h => h.1 == n && h.2.1 == k
  let lost := m.map.work.filter fun g =>
    g.issued && !g.landed && g.kind != .zero && (m.stripesOf g).any fun k => hit g.set k
  let sets := m.map.sets.map fun e =>
    if hit e.1 e.2.stripe then (e.1, { e.2 with stripe := e.2.stripe + 1, pos := 0, off := 0 }) else e
  let pages := m.fch.pages.filter fun p => !(held.any fun h => h.2.2 == p.1)
  let dies := m.fch.dies.map fun d =>
    (d.1, { d.2 with queue := d.2.queue.filter fun op => match op.why with | .land _ => false | _ => true })
  let m1 : Mach := { m with map := { m.map with sets := sets }, fch := { m.fch with pages := pages, dies := dies } }
  (lost.foldl Mach.grainLost m1).settle

/-- Held erases are abandoned: each set stays ERASING, to be taken up again. -/
def Mach.erasesFail (m : Mach) : Mach :=
  m.fch.dies.foldl (fun m e =>
    let v := m.die e.1
    let m1 := m.setDie e.1 { v with queue := v.queue.filter fun op => op.kind != .erase }
    match v.susp with
    | some c =>
      if v.resumes m.fch.maxReads then (m1.setDie e.1 { m1.die e.1 with susp := none, past := 0 }).tokensBack c.tokens c.op.slice
      else m1
    | none => m1) m

/-- Commands that wait for a journal page, or for an array program, end with SUPPLY-LOW (R590, R594). -/
def Mach.waitersFail (m : Mach) : Mach :=
  let late := if m.map.jqueue.isEmpty then []
    else (m.hq.cmds.filter fun e => e.2.ent.opc == 4 && e.2.verdict.isSome && decide (m.map.jsnDone < e.2.count)).map (·.1)
  let m1 := late.foldl (fun m t => m.finishOpen t 0x0303) m
  let m2 := match m1.hq.entry with
    | some e =>
      if e.shut m1.tb && e.target == 4 && !m1.map.jqueue.isEmpty && !m1.pwr.stop
      then Mach.finishOpen { m1 with hq := { m1.hq with entry := none } } e.tag 0x0303 else m1
    | none => m1
  match m2.stageWaits with
  | some t => m2.finishOpen t 0x0303
  | none => m2

/-- The hold window expires: every held operation fails, and event 19 is raised (R589, R590). -/
def Mach.holdExpire (m : Mach) : Mach :=
  let m1 := ((((m.landingsFail).erasesFail).waitersFail).slcExpire).keysExpire
  let m2 := Mach.fwaExpire { m1 with fwa := { m1.fwa with heldFuse := [] } }
  Mach.raise { m2 with pwr := { m2.pwr with holdOpen := false, expired := up16 m2.pwr.expired } } 19

/-- Is the end of the open hold window reached? -/
def Pwr.holdOver (p : Pwr) (tb : Nat) : Bool := p.holdOpen && decide (p.holdStart + 1000000 ≤ tb)

/-- What the fabric does about the supply (R588, R589): a window whose end has passed expires; one that VIN has left closes; held operations
issue once nothing inhibits them. -/
def Mach.holdJudge (m : Mach) : Mach :=
  let m1 := if m.pwr.holdOver m.tb then m.holdExpire else m
  let m2 : Mach := if m1.pwr.inhibit then m1 else { m1 with pwr := { m1.pwr with holdOpen := false } }
  Mach.wpFollow (if m2.inhibited then m2.fwaSag else m2.holdIssue)

/-! ## VIN (R584, R587, R591) -/

/-- The monitor finds VIN at a value: thresholds, crossings and their events. -/
def Mach.vinCross (m : Mach) (mv : Nat) : Mach :=
  let p := m.pwr
  let warn := if p.warn then decide (mv < p.thrWarn + 50) else decide (mv < p.thrWarn)
  let inh := if p.inhibit then decide (mv < p.thrInh + 50) else decide (mv < p.thrInh)
  let fall := inh && !p.inhibit
  let m1 : Mach := { m with pwr := { p with vinMv := sat 65535 mv, warn := warn, inhibit := inh } }
  let m2 := if warn && !p.warn then m1.raise 16 else m1
  if fall then
    Mach.raise { m2 with pwr := { m2.pwr with holdOpen := true, holdStart := m2.tb, windows := up16 m2.pwr.windows } } 17
  else if p.inhibit && !inh then m2.raise 18
  else m2

/-- A sample of VIN. Below the reset threshold the module resets at once, and PWR_RAIL_LAST is cleared (R586, R591). The monitor runs on
in a freeze; what the fabric does about it waits for the thaw (R607, R610). -/
def Mach.vinSample (m : Mach) (mv : Nat) : Mach :=
  if m.pwr.noVin || m.lands.nresetLow || m.pwr.hotReset then
    if mv < 2450 then { m with pwr := { m.pwr with noVin := true, railLast := 0 } } else m
  else if mv < 2450 then let c := m.cold; { c with pwr := { c.pwr with noVin := true, railLast := 0 } }
  else
    let m0 := if !m.dbg.frozen && m.pwr.holdOver m.tb then m.holdExpire else m
    let m1 := m0.vinCross mv
    if m1.dbg.frozen then m1 else m1.holdJudge

/-! ## Temperature (R595, R596) -/

/-- The throttle band for a temperature, from the band in force (R595). -/
def throtBand (old : Nat) (t : Int) : Nat :=
  if 108 ≤ t then 3
  else if old = 3 ∧ 105 ≤ t then 3
  else if 103 ≤ t then 2
  else if 2 ≤ old ∧ 100 ≤ t then 2
  else if 95 ≤ t then 1
  else if 1 ≤ old ∧ 92 ≤ t then 1 else 0

/-- The throttle follows the hottest sensor. -/
def Mach.thermal (m : Mach) (t : W32) : Mach :=
  let p := m.pwr
  let b := throtBand p.throt (hottest t)
  let p1 := { p with throt := b, tempQ := t }
  let m1 : Mach := Mach.keepSense { m with pwr := { p1 with settling := p.settling || p1.level != p.level } }
  if b = p.throt then m1 else m1.raise 26

/-- At 112 °C the hold rules apply, with event 27 and no window (R596). -/
def Mach.hotHold (m : Mach) (t : W32) : Mach :=
  let m1 : Mach := Mach.keepSense { m with pwr := { m.pwr with tempQ := t } }
  if decide (112 ≤ hottest t) && !m1.pwr.hotHold then Mach.holdJudge (Mach.raise { m1 with pwr := { m1.pwr with hotHold := true } } 27) else m1

/-- Below 109 °C the operations held by heat issue; below 100 °C a module that 120 °C reset leaves its hold (R596). -/
def Mach.hotRelease (m : Mach) (t : W32) : Mach :=
  if m.pwr.hotReset then { m with pwr := { m.pwr with hotReset := decide (100 ≤ hottest t) } }
  else if m.resting then m
  else
    let m1 : Mach := Mach.keepSense { m with pwr := { m.pwr with tempQ := t } }
    if hottest t < 109 ∧ m1.pwr.hotHold then Mach.holdJudge { m1 with pwr := { m1.pwr with hotHold := false } } else m1

/-! ## Registers (R601, R28, R29, R36) -/

/-- Is a write of both thresholds in range (R587)? -/
def thrOk (warn inh : Nat) : Bool :=
  decide (2650 ≤ warn) && decide (warn ≤ 12800) && decide (2600 ≤ inh) && decide (inh ≤ 12600) && decide (inh + 50 ≤ warn)

/-- A write to PWR_ALARM_CTL: ring 0 lifts STOP (R599). -/
def Mach.alarmCtl (m : Mach) (w : Who) (v : W64) : Mach × RegOut :=
  m.writeReg w (pwrReg 0x38) v (rsvBits [(63, 60)]) w.zero (fld v 63 60 == 1 && m.pwr.stop) fun m =>
    { m with pwr := { m.pwr with stop := false } }

/-- A write to PWR_ALARM_EVT: rings 0 and 1 clear bits (R600). -/
def Mach.alarmClear (m : Mach) (w : Who) (v : W64) : Mach × RegOut :=
  m.writeReg w (pwrReg 0x30) v (rsvBits [(63, 63), (31, 0)]) w.low true fun m =>
    { m with pwr := { m.pwr with alarmEvt := m.pwr.alarmEvt &&& ~~~(v.setWidth 32) } }

/-- A write to PWR_VCORE_REQ: ring 0 (R26, R28). -/
def Mach.vcoreReq (m : Mach) (w : Who) (v : W64) : Mach × RegOut :=
  m.writeReg w (pwrReg 0x40) v (rsvBits [(1, 0)]) w.zero true fun m => m.setVreq (fld v 1 0)

/-- Is ALERT_N asserted, driven low (R600)? -/
def Mach.alertLow (m : Mach) : Bool := m.pwr.alarmEvt &&& ~~~m.pwr.alertMask != 0

/-- A PWR register as it reads. -/
def Mach.pwrWord (m : Mach) (off : Nat) : W64 :=
  let p := m.pwr
  match off with
  | 0x00 => at_ 48 p.vinMv ||| flagAt 2 p.holdOpen ||| flagAt 1 p.inhibit ||| flagAt 0 p.warn
  | 0x08 => at_ 32 p.thrWarn ||| at_ 0 p.thrInh
  | 0x10 => w64 p.holdStart
  | 0x18 => at_ 48 p.windows ||| at_ 32 p.expired ||| at_ 0 (sat 65535 m.heldCount)
  | 0x30 => flagAt 63 p.stop ||| p.alarmEvt.setWidth 64
  | 0x40 => w64 p.req
  | 0x48 => p.vcoreStat
  | 0x50 => p.alertMask.setWidth 64
  | 0x58 => at_ 56 p.railLast ||| p.railFlt.setWidth 64
  | 0x60 => p.tempQ.setWidth 64
  | 0x68 => p.tempD.setWidth 64
  | 0x70 => flagAt 63 p.firstValid ||| at_ 48 p.firstCls ||| p.firstLoc.setWidth 64
  | _ => 0

/-- A read of a PWR register: rings 0 and 1. -/
def Mach.pwrRead (m : Mach) (w : Who) (off : Nat) : Mach × RegOut :=
  if !w.low then (m, .denied 1)
  else
    let v := m.pwrWord off
    (if off = 0x18 then { m with pwr := { m.pwr with windows := 0, expired := 0 } } else m, .value v)

/-- A write to a PWR register. -/
def Mach.pwrWrite (m : Mach) (w : Who) (off : Nat) (v : W64) : Mach × RegOut :=
  let a := pwrReg off
  match off with
  | 0x00 => m.deadWrite w a v (rsvBits [(63, 48), (2, 0)])
  | 0x08 =>
    m.writeReg w a v (rsvBits [(47, 32), (15, 0)]) w.zero (thrOk (fld v 47 32) (fld v 15 0)) fun m =>
      { m with pwr := { m.pwr with thrWarn := fld v 47 32, thrInh := fld v 15 0 } }
  | 0x10 => m.deadWrite w a v 0
  | 0x18 => m.deadWrite w a v (rsvBits [(63, 32), (15, 0)])
  | 0x30 => m.alarmClear w v
  | 0x38 => m.alarmCtl w v
  | 0x40 => m.vcoreReq w v
  | 0x48 => m.deadWrite w a v (rsvBits [(11, 8), (2, 0)])
  | 0x50 => m.writeReg w a v (rsvBits [(31, 0)]) w.low true fun m => { m with pwr := { m.pwr with alertMask := v.setWidth 32 } }
  | 0x58 =>
    m.writeReg w a v (rsvBits [(63, 56), (7, 0)]) w.zero true fun m =>
      { m with pwr := { m.pwr with railFlt := m.pwr.railFlt &&& ~~~(v.setWidth 8) } }
  | 0x60 => m.deadWrite w a v (rsvBits [(31, 0)])
  | 0x68 => m.deadWrite w a v (rsvBits [(39, 0)])
  | 0x70 =>
    m.writeReg w a v (rsvBits [(63, 63), (51, 48), (39, 0)]) w.zero true fun m =>
      if bit v 63 then { m with pwr := { m.pwr with firstValid := false } } else m
  | _ => m.deadWrite w a v (BitVec.allOnes 64)

/-- TMB_NOW and TMB_STAT (R36). -/
def Mach.tmbRead (m : Mach) (w : Who) (off : Nat) : Mach × RegOut :=
  m.readReg w.low (if off = 0 then w64 m.tb else if off = 8 then flagAt 0 m.refLost else 0)

/-! ## Commands -/

/-- RESONATOR_LOSS (R35): the link tells its peer (R217). -/
def execResonatorLoss (s : State) : Host.Outcome State Fault Refusal :=
  s.act fun m => m.onLink fun m =>
    if m.refLost then m
    else
      let m1 : Mach := { m with refLost := true }
      let m2 : Mach := if m1.lnk.state = .active then { m1 with lnk := { m1.lnk with lctl := m1.lnk.lctl ++ [at_ 0 5] } } else m1
      m2.raise 24

/-- PWR_VCORE_REQ_WRITE (R26). -/
def execPwrVcoreReqWrite (w : Who) (v : W64) (s : State) : Host.Outcome State Fault Refusal := s.access fun m => m.vcoreReq w v

/-- VCORE_SETTLED (R27). -/
def execVcoreSettled (s : State) : Host.Outcome State Fault Refusal :=
  s.act fun m => m.onLink fun m => { m with pwr := { m.pwr with settling := false } }

/-- THERMAL_BAND_CHANGE (R595). -/
def execThermalBandChange (t : W32) (s : State) : Host.Outcome State Fault Refusal := s.act fun m => m.fabric fun m => m.thermal t

/-- WINNOW_BAND_CHANGE (R478). -/
def execWinnowBandChange (t : W32) (s : State) : Host.Outcome State Fault Refusal :=
  s.act fun m => m.fabric fun m =>
    let b := winnowBand m.wnw.band (hottest t)
    let m1 : Mach := Mach.keepSense { m with wnw := { m.wnw with band := b }, pwr := { m.pwr with tempQ := t } }
    if b = m.wnw.band then m1 else m1.raise 643

/-- OVERTEMP_HOLD (R596). -/
def execOvertempHold (t : W32) (s : State) : Host.Outcome State Fault Refusal := s.act fun m => m.fabric fun m => m.hotHold t

/-- OVERTEMP_RELEASE (R596). -/
def execOvertempRelease (t : W32) (s : State) : Host.Outcome State Fault Refusal := s.act fun m => m.hotRelease t

/-- OVERTEMP_RESET (R596): it resets a frozen module as well. -/
def execOvertempReset (t : W32) (s : State) : Host.Outcome State Fault Refusal :=
  s.act fun m => m.onLink fun m =>
    if 120 ≤ hottest t then let c := m.cold; { c with pwr := { c.pwr with hotReset := true } } else m

/-- VIN_WARNING (R587). -/
def execVinWarning (mv : Nat) (s : State) : Host.Outcome State Fault Refusal := s.act fun m => m.vinSample mv
/-- VIN_INHIBIT (R589). -/
def execVinInhibit (mv : Nat) (s : State) : Host.Outcome State Fault Refusal := s.act fun m => m.vinSample mv
/-- VIN_RECOVER (R589). -/
def execVinRecover (mv : Nat) (s : State) : Host.Outcome State Fault Refusal := s.act fun m => m.vinSample mv
/-- VIN_RESET (R591). -/
def execVinReset (mv : Nat) (s : State) : Host.Outcome State Fault Refusal := s.act fun m => m.vinSample mv

/-- HOLD_WINDOW_EXPIRE (R590): a frozen module judges the window at thaw (R610). -/
def execHoldWindowExpire (s : State) : Host.Outcome State Fault Refusal :=
  s.act fun m => m.fabric fun m => if m.pwr.holdOver m.tb then m.holdJudge else m

/-- RAIL_FAULT (R586). -/
def execRailFault (n : Fin 8) (s : State) : Host.Outcome State Fault Refusal :=
  s.act fun m => m.onLink fun m =>
    Mach.raise { m with pwr := { m.pwr with railFlt := m.pwr.railFlt ||| (1 <<< n.val), railsGood := false } } 25

/-- RAIL_RESET (R586). -/
def execRailReset (n : Fin 8) (s : State) : Host.Outcome State Fault Refusal :=
  s.act fun m => m.onLink fun m => let c := m.cold; { c with pwr := { c.pwr with railLast := n.val + 1 } }

/-- ALARM_RESUME (R599). -/
def execAlarmResume (w : Who) (s : State) : Host.Outcome State Fault Refusal := s.access fun m => m.alarmCtl w (at_ 60 1)

/-- PWR_ALARM_EVT_CLEAR (R600). -/
def execPwrAlarmEvtClear (w : Who) (v : W64) (s : State) : Host.Outcome State Fault Refusal := s.access fun m => m.alarmClear w v

end Sys2Proof.Machine
end

