-- ==== Sys2Proof/Machine/Mount.lean ====
section
/-! DEFINITION. The mount: commissioning and identification of the dies, channel training, recovery of the map from checkpoints, journal
and landed images, slices, and the boot count (R335 to R338, R356, R363 to R365, R383, R301, R453, R455). -/

namespace Sys2Proof.Machine

/-! ## Dies (R361 to R365) -/

/-- Geometry class of a die (R363). -/
def DieFact.geo (f : DieFact) : Nat × Nat × Nat × Nat := (f.kind, f.planes, f.blocks, f.wls)

/-- Can the die serve: its profile and limits match, and its factory marks keep the maximum (R361, R364)? -/
def DieFact.good (f : DieFact) : Bool := f.usable && decide (f.marks.length ≤ f.maxMarks)

/-- The geometry class that holds the most dies; of equal ones that of the first die (R363). -/
def moduleClass (l : List DieFact) : Option (Nat × Nat × Nat × Nat) :=
  let good := l.filter DieFact.good
  let count := fun (f : DieFact) => (good.filter fun x => x.geo == f.geo).length
  (good.foldl (fun (best : Option (DieFact × Nat)) f =>
    match best with
    | none => some (f, count f)
    | some b => if b.2 < count f then some (f, count f) else best) none).map fun b => b.1.geo

/-- A die as it is identified. -/
def DieFact.found (f : DieFact) (st : DieState) : Die :=
  { Die.reset with state := st, profile := f.profile, kind := f.kind, planes := f.planes, blocks := f.blocks, wls := f.wls, lag := f.lag,
                   canSusp := f.canSusp, busyR := f.busyR, busyP := f.busyP, busyE := f.busyE, rate := f.rate, ident := f.ident }

/-- A die is excluded, with its channel's event. -/
def Mach.exclude (m : Mach) (f : DieFact) : Mach := (m.setDie f.die (f.found .excluded)).raise (131 + 4 * chanOf f.die)

/-- The commissioning scan (R364): the media hold nothing yet. -/
def Mach.commission (m : Mach) (facts : List DieFact) : Mach :=
  let geo := moduleClass facts
  let m0 : Mach := { m with map := { Map.reset with rooted := true, log := m.map.log }
                            fch := { m.fch with dies := [], pages := [] }
                            slc := { m.slc with recs := [] } }
  let one := fun (m : Mach) (f : DieFact) =>
    if f.good && some f.geo == geo then
      let mark := fun (b : Nat) => ({ die := f.die, block := b, whole := false, kind := 1 } : Defect)
      let m1 := m.setDie f.die (f.found .inService)
      { m1 with map := { m1.map with defects := m1.map.defects ++ f.marks.map mark } }
    else m.exclude f
  let m1 := facts.foldl one m0
  let (e, m2) := Mach.entropy { m1 with map := { m1.map with defGen := 1 } }
  m2.writeKey 4 { sysKey (keyOf (Alg.hmac512.mac (m2.key 0).value (ascii "HK96SEAL" ++ e))) .hmac with persist := true }

/-- The dies of the commissioning record are found again, or failed; a die at another position is excluded (R365). -/
def Mach.identifyDies (m : Mach) (facts : List DieFact) : Mach :=
  let known := m.fch.dies.map (·.1)
  let one := fun (m : Mach) (d : Nat) =>
    let v := m.die d
    let broken := m.map.defects.any fun x => x.die == d && x.whole
    if broken then m.setDie d { v with state := .failed }
    else match facts.find? fun f => f.die == d with
      | some f =>
        if f.usable && f.ident == v.ident then m.setDie d { v with state := .inService }
        else (m.failDie d).raise (131 + 4 * chanOf d)
      | none => (m.failDie d).raise (131 + 4 * chanOf d)
  (facts.filter fun f => !known.contains f.die).foldl Mach.exclude (known.foldl one m)

/-- A channel trains: at the lower of FCH_CFG_RATEMAX and the slowest rate its dies declare, or at what training reached; each step down
counts and raises its event (R356). -/
def Mach.trainChannel (rates : List (Nat × Nat)) (m : Mach) (c : Nat) : Mach :=
  let dies := (m.fch.dies.filter fun d => chanOf d.1 == c && d.2.state == .inService).map (·.2)
  if dies.isEmpty then m
  else
    let v := m.chan c
    let want := dies.foldl (fun r d => Nat.min r d.rate) v.rateMax
    let got := Nat.min want (((rates.find? fun r => r.1 == c).map (·.2)).getD want)
    let m1 := iter (fun m => (m.modChan c fun v => { v with train := up16 v.train }).raise (131 + 4 * c)) (want - got) m
    if got = 0 then
      ((List.range 16).map (· + 16 * c)).foldl Mach.awayDie (m1.modChan c fun v => { v with state := .failed, rate := 0 })
    else m1.modChan c fun v => { v with state := .active, rate := got, wpLow := false }

/-! ## Recovery of the map (R335, R336) -/

/-- Is namespace n of slice s fine, by the durable slice records? -/
def Mach.recFine (m : Mach) (s n : Nat) : Bool := (((tget? m.slc.recs s).bind fun r => r.desc.ns[n]?).map NsDesc.fine).getD false

/-- The checkpoints' entries. -/
def Mach.loadCkpts (m : Mach) : Mach :=
  let put := fun (fine : Bool) (m : Mach) (c : Nat × Ckpt) => c.2.entries.foldl (fun m e => m.setEntry fine e.1 e.2) m
  m.map.ckptSegs.foldl (put true) (m.map.ckpts.foldl (put false) m)

/-- Does the checkpoint of a key's page already hold record j? -/
def Mach.covered (m : Mach) (fine : Bool) (k j : Nat) : Bool :=
  (if fine then tget? m.map.ckptSegs (k / 512) else tget? m.map.ckpts (k / 256)).any fun c => decide (j ≤ c.jsn)

/-- A durable record is applied to the map (R331, R335). -/
def Mach.replayRec (m : Mach) (r : JRec) : Mach :=
  let fine := m.recFine r.slice r.ns
  let k := mapKey fine r.slice r.ns r.w1.toNat
  let put := fun (m : Mach) (k : Nat) => if m.covered fine k r.jsn then m else m.setEntry fine k r.w2
  match r.typ with
  | 1 | 2 => put m k
  | 3 => (List.range r.w3.toNat).foldl (fun m i => put m (k + i)) m
  | 4 | 5 | 6 => if m.entry fine k = r.w3 then put m k else m
  | _ => m

/-- The order of landed images: order key, then LSN (R316, R335). -/
def imgBefore (a b : Img) : Bool :=
  if a.boot ≠ b.boot then decide (a.boot < b.boot)
  else if a.asn ≠ b.asn then asnBefore a.asn b.asn else decide (a.lsn < b.lsn)

/-- Insert an image in that order. -/
def insertImg (x : Img) : List Img → List Img
  | [] => [x]
  | y :: t => if imgBefore x y then x :: y :: t else y :: insertImg x t

/-- Images that no durable record names, in their order (R335). -/
def Mach.pendingImgs (m : Mach) : List Img :=
  let named := m.map.durable.filterMap fun r => if r.typ = 1 ∨ r.typ = 2 then some r.w3.toNat else none
  (m.map.imgs.filter fun g => decide (m.map.lwm ≤ g.lsn) && !named.contains g.lsn).foldl (fun l g => insertImg g l) []

/-- A pending image takes its grain, and its record is appended. -/
def Mach.applyImg (m : Mach) (g : Img) : Mach :=
  match (m.mset? g.set).bind fun s => s.key g.stripe g.pos with
  | none => m
  | some p =>
    let loc : Place := { die := keyDie p, block := keyBlock p, page := p % 4096, off := g.off }
    let e := if g.fine then fineWord g.gen loc else entryWord 5 loc 0
    (m.setEntry g.fine (mapKey g.fine g.slice g.ns g.grain) e).jrec (if g.fine then 2 else 1) g.ns g.slice (w64 g.grain) e (w64 g.lsn)

/-- Sets that were open at the loss are closed and queued for reclaim (R383). -/
def Mach.closeSets (m : Mach) : Mach :=
  (m.map.sets.filter fun e => e.2.state == .open_).foldl (fun m e => (m.setMset e.1 { e.2 with victim := true }).setState e.1 .closed) m

/-- The map as recovery finds it. -/
def Mach.recover (m : Mach) : Mach :=
  let m1 := m.map.durable.foldl Mach.replayRec m.loadCkpts
  m1.pendingImgs.foldl Mach.applyImg m1.closeSets

/-- Every map page and segment with an entry still has to be loaded (R338). -/
def Mach.coolMap (m : Mach) : Mach :=
  let pages := fun (n : Nat) (t : Tab W64) => t.foldl (fun (l : List Nat) e => if l.contains (e.1 / n) then l else l ++ [e.1 / n]) []
  { m with map := { m.map with cold := pages 256 m.map.coarse, coldSeg := pages 512 m.map.fine } }

/-! ## Slices, keys and the boot count (R301, R316, R455) -/

/-- The key store is unwrapped into the slots. -/
def Mach.unwrapStore (m : Mach) : Mach := m.dgs.store.foldl (fun m e => m.setKey e.1 e.2) m

/-- A slice is settled from its record: LIVE, its preparation repeated where it had not run, or destroyed to the end (R301). -/
def Mach.settleSlice (m : Mach) (e : Nat × SlcRec) : Mach :=
  let s := e.1
  let d := e.2.desc
  let m1 := ((m.setSlice s { state := if e.2.destroy then .destroying else .live, desc := d }).setSlq s { quota := d.bufq, held := 0 }).giveRegion s d
  if e.2.destroy then m1.eraseSlice s
  else if (List.range d.kscnt).any fun i => (tget? m1.dgs.store (d.ksfirst + i)).isSome then m1
  else m1.prepareSlice s

/-- The boot count goes up, in a BOOT record, and every record of recovery becomes durable. -/
def Mach.countBoot (m : Mach) : Mach :=
  let last := (((m.map.durable.filter fun r => r.typ == 0xE).getLast?).map fun r => r.w2.toNat).getD 0
  let n := (last + 1) % 2 ^ 32
  let m1 := Mach.jrec { m with map := { m.map with boot := n } } 0xE 0 0 0 (w64 n) 0
  iter Mach.journalDurable m1.map.jqueue.length m1

/-- MOUNT (R337): steps 3 to 7, once in a boot, out of limp mode, while nothing holds media writes. -/
def Mach.mountAll (m : Mach) (facts : List DieFact) (rates : List (Nat × Nat)) : Mach :=
  if !m.booted || m.fwa.limp || m.map.mount != 0 || m.mediaHeld then m
  else
    let m1 := if m.map.rooted then (m.unwrapStore).identifyDies facts else m.commission facts
    let m2 := (List.range 96).foldl (Mach.trainChannel rates) m1
    let m3 := (m2.recover).coolMap
    let m4 := (m3.slc.recs.foldl Mach.settleSlice m3).countBoot
    let done := m4.map.cold.isEmpty && m4.map.coldSeg.isEmpty
    let m5 : Mach := { m4 with map := { m4.map with mount := 5, resident := done }, hq := { m4.hq with ready := true } }
    let m6 := (((m5.raise 1012).bootStep 8).judgeHead).drainHeld
    if done then (m6.raise 1013).bootStep 9 else m6

/-- MOUNT (R337). -/
def execMount (facts : List DieFact) (rates : List (Nat × Nat)) (s : State) : Host.Outcome State Fault Refusal :=
  s.act fun m => m.fabric fun m => m.mountAll facts rates

end Sys2Proof.Machine
end

