-- ==== Sys2Proof/Machine/Dbg.lean ====
section
/-! DEFINITION. Freeze and thaw, debug halt, and the DBG registers (chapter 19). -/

namespace Sys2Proof.Machine

/-- Address of a DBG register. -/
def dbgReg (off : Nat) : Nat := 0x201200000 + off

/-! ## Freeze (R604 to R608) -/

/-- Is a freeze source in force? -/
def Dbg.source (d : Dbg) : Bool := d.frzPin || d.frzCmd

/-- The link goes to HOLD with the fabric, and asserts event 38 (R249). -/
def Mach.linkHold (m : Mach) : Mach :=
  if m.lnk.state = .active then Mach.raise { m with lnk := { m.lnk with state := .hold, holdAt := m.tb } } 38 else m

/-- The fabric comes to rest (R605 steps 2 to 6): DRAM in self refresh, the link in HOLD, FROZEN set. -/
def Mach.freezeDone (m : Mach) : Mach :=
  let d := m.dbg
  let m1 : Mach := { m with dbg := { d with frozen := true, entering := false, frzStart := d.entryAt, count := sat (2 ^ 32 - 1) (d.count + 1) } }
  (m1.selfRefresh true).linkHold

/-! ## Thaw (R608 to R610) -/

/-- The scheduler accepts what was asserted during the freeze, in order (R607). -/
def Mach.flushAsserted (m : Mach) : Mach :=
  m.dbg.asserted.foldl Mach.deliver { m with dbg := { m.dbg with asserted := [] } }

/-- Operation-timeout windows are lengthened by the freeze (R608). -/
def Mach.stretchNand (m : Mach) : Mach :=
  let n := m.tb - m.dbg.frzStart
  let put := fun (e : Nat × Die) =>
    (e.1, { e.2 with cur := e.2.cur.map fun c => { c with from_ := c.from_ + n }, resetAt := e.2.resetAt.map (· + n) })
  { m with fch := { m.fch with dies := m.fch.dies.map put } }

/-- A command whose 4 ms span ended during the freeze receives one notice (R610). -/
def Mach.lateNotices (m : Mach) : Mach :=
  (m.hq.cmds.filter fun e => decide (e.2.resp + 400000 ≤ m.tb)).foldl (fun m e => m.notice e.1) m

/-- Sleepers whose deadline has passed wake (R155, R610). -/
def Mach.wakeSleepers (m : Mach) : Mach :=
  m.sch.thrs.foldl (fun m e =>
    let t := e.2
    if t.state == .waiting && t.waitKind == .sleep && decide (t.deadline ≤ m.tb) && !m.readyHeld e.1 then m.ready e.1 .slept else m) m

/-- Each block judges the windows that ended during the freeze (R610). -/
def Mach.judgeWindows (m : Mach) : Mach :=
  let m1 := m.mbx.boxes.foldl (fun m b => m.boxTimeout b.1) m
  let m2 := ((List.range 16).foldl Mach.fireTmr m1).wakeSleepers
  let m3 := m2.actExpire
  (m3.holdJudge).lateNotices

/-- Thaw (R609): what was held goes on, DRAM leaves self refresh unless the power state keeps it, the link leaves HOLD by RECOVERY. -/
def Mach.thaw (m : Mach) : Mach :=
  let m1 : Mach := { m with dbg := { m.dbg with frozen := false } }
  let m2 := (m1.selfRefresh (decide (3 ≤ m1.hq.pstate))).stretchNand
  let m3 := if m2.lnk.state = .hold then m2.toRecovery else m2
  Mach.raise ((m3.flushAsserted).judgeWindows) 994

/-- Thaw begins when the fabric is frozen and no source is in force. -/
def Mach.maybeThaw (m : Mach) : Mach := if m.dbg.frozen && !m.dbg.source then m.thaw else m

/-! ## Registers (R612, R613, R616, R617) -/

/-- Is core c halted or the fabric frozen, so that its state can be read (R616)? -/
def Mach.coreShown (m : Mach) (c : Nat) : Bool := m.dbg.frozen || (m.core c).halted

/-- Word n of the state of core c (R616). -/
def Mach.coreState (m : Mach) (c n : Nat) : W64 :=
  match (m.core c).thr with
  | none => 0
  | some k =>
    let t := m.thr k
    let prod := fun (i : Nat) => (t.prods[i]?).getD { left := 0, hi := 0, lo := 0 }
    if n < 32 then t.gr (BitVec.ofNat 5 n)
    else if n = 32 then w64 (((List.range 8).map fun i => if t.pr (BitVec.ofNat 3 i) then 2 ^ i else 0).sum)
    else if n = 33 then pcVal t.pc
    else if n = 34 then t.ts k
    else if n = 35 then t.pl
    else if n = 36 then t.ph
    else if n = 37 then pcVal t.xpc
    else if n = 38 then t.xc
    else if n = 39 then t.xa
    else if n < 48 then (if t.ring = .r2 then tget 0 t.wn (n - 40) else 0)
    else if n < 54 then let p := prod ((n - 48) / 2); if n % 2 = 0 then p.lo else p.hi
    else if n = 54 then at_ 0 (prod 0).left ||| at_ 4 (prod 1).left ||| at_ 8 (prod 2).left
    else if n = 55 then (t.pload.map (·.val)).getD 0
    else if n = 56 then (match t.pload with | some l => flagAt 8 true ||| at_ 0 l.rd.toNat | none => 0)
    else 0

/-- Core and word that an offset of the block names, if it names a core's state. -/
def coreWordOf (off : Nat) : Option (Nat × Nat) :=
  if 0x1000 ≤ off ∧ off < 0x1000 + 0x400 * 72 then some ((off - 0x1000) / 0x400, (off - 0x1000) % 0x400 / 8) else none

/-- Cores of a run for which a bit shows that they are halted. -/
def Mach.haltMask (m : Mach) (first n : Nat) : W64 :=
  w64 (((List.range n).map fun i => if (m.core (first + i)).halted then 2 ^ i else 0).sum)

/-- A breakpoint as it reads. -/
def Bp.word (b : Bp) : W64 := flagAt 63 b.en ||| at_ 60 b.rings.toNat ||| pcVal b.addr

/-- A DBG register as it reads. -/
def Mach.dbgWord (m : Mach) (off : Nat) : W64 :=
  let d := m.dbg
  match coreWordOf off with
  | some (c, n) => if m.coreShown c then m.coreState c n else 0
  | none =>
    if 0x80 ≤ off ∧ off < 0xC0 then (tget Bp.reset d.bps ((off - 0x80) / 8)).word
    else if 0x40 ≤ off ∧ off < 0x58 then tget 0 d.frzNand ((off - 0x40) / 8)
    else match off with
      | 0x08 => flagAt 63 d.frozen ||| flagAt 62 d.frzPin ||| flagAt 61 d.frzCmd ||| flagAt 60 d.entering ||| at_ 0 d.count
      | 0x10 => w64 d.frzStart
      | 0x20 => m.haltMask 0 64
      | 0x28 => m.haltMask 64 8
      | _ => 0

/-- A read of a DBG register: rings 0 and 1. -/
def Mach.dbgRead (m : Mach) (w : Who) (off : Nat) : Mach × RegOut := m.readReg w.low (m.dbgWord off)

/-- HALT stops core c at its next boundary (R612). -/
def Mach.haltCore (m : Mach) (c : Nat) : Mach :=
  let v := m.core c
  if v.halted then m else (m.setCore c { v with halted := true }).raise 995

/-- A write to DBG_CTL: through DBGACC alone (R617). At level 2 DBGACC writes nothing (R615). -/
def Mach.dbgCtl (m : Mach) (w : Who) (v : W64) : Mach × RegOut :=
  let op := fld v 63 60
  let c := fld v 6 0
  let lv := m.fwa.level
  let ok := match op with
    | 1 | 2 => true
    | 3 | 4 => lv != 2 && decide (c < 72)
    | 5 => lv == 1 && m.fwa.fuseOk 3
    | _ => false
  m.writeReg w (dbgReg 0) v (rsvBits [(63, 60), (6, 0)]) (w.dbg && (lv != 2 || !ok)) ok fun m =>
    match op with
    | 1 => Mach.freezeEnter { m with dbg := { m.dbg with frzCmd := true } }
    | 2 => Mach.maybeThaw { m with dbg := { m.dbg with frzCmd := false } }
    | 3 => m.haltCore c
    | 4 => m.setCore c { m.core c with halted := false }
    | _ => m.fuseWrite 3

/-- A write to DBG_BP_k: ring 0, and through DBGACC (R617). -/
def Mach.bpWrite (m : Mach) (w : Who) (k : Nat) (v : W64) : Mach × RegOut :=
  m.writeReg w (dbgReg (0x80 + 8 * k)) v (rsvBits [(63, 60), (39, 2)]) w.zero (m.fwa.level != 2) fun m =>
    { m with dbg := { m.dbg with bps := tset m.dbg.bps k { en := bit v 63, rings := BitVec.ofNat 3 (fld v 62 60), addr := pcOf v } } }

/-- A write of a DBG register. -/
def Mach.dbgWrite (m : Mach) (w : Who) (off : Nat) (v : W64) : Mach × RegOut :=
  let a := dbgReg off
  if off = 0 then m.dbgCtl w v
  else if 0x80 ≤ off ∧ off < 0xC0 then m.bpWrite w ((off - 0x80) / 8) v
  else if 0x40 ≤ off ∧ off < 0x58 then m.idleWrite w a v 0
  else match off with
    | 0x08 => m.idleWrite w a v (rsvBits [(63, 60), (31, 0)])
    | 0x10 | 0x20 => m.idleWrite w a v 0
    | 0x28 => m.idleWrite w a v (rsvBits [(7, 0)])
    | _ => m.idleWrite w a v (if (coreWordOf off).any fun x => x.2 < 57 then 0 else BitVec.allOnes 64)

/-! ## Commands -/

/-- A write that the debug port makes: it is made in a freeze as well, and not while the module is in reset. -/
def State.debugAccess (s : State) (f : Mach → Mach × RegOut) : Host.Outcome State Fault Refusal :=
  s.act fun m => m.onLink fun m => let r := f m; r.1.answer r.2.answer

/-- FRZ_N_ASSERT (R604, R625): a low level held before boot step 2 ends takes effect then. -/
def execFrzNAssert (s : State) : Host.Outcome State Fault Refusal :=
  s.act fun m =>
    let m1 : Mach := { m with dbg := { m.dbg with frzPin := true } }
    if m1.booted then m1.onLink Mach.freezeEnter else m1

/-- FREEZE (R604). -/
def execFreeze (w : Who) (s : State) : Host.Outcome State Fault Refusal := s.debugAccess fun m => m.dbgCtl w (at_ 60 1)

/-- FREEZE_COMPLETE (R605): an entry whose sources have gone completes and thaws. -/
def execFreezeComplete (s : State) : Host.Outcome State Fault Refusal :=
  s.act fun m => m.onLink fun m => if m.dbg.entering then m.freezeDone.maybeThaw else m

/-- FREEZE_MONITOR_READY (R608). -/
def execFreezeMonitorReady (n : Fin 96) (j : Fin 2) (s : State) : Host.Outcome State Fault Refusal :=
  s.act fun m => m.onLink fun m =>
    if m.dbg.frozen || m.dbg.entering then
      { m with dbg := { m.dbg with frzNand := tmod 0 (fun v => v ||| (1 <<< (2 * (n.val % 32) + j.val))) m.dbg.frzNand (n.val / 32) } }
    else m

/-- THAW (R609): the FRZ_N land rises, or DBG_CTL withdraws FREEZE. -/
def execThaw (pin : Bool) (s : State) : Host.Outcome State Fault Refusal :=
  s.act fun m =>
    if pin then let m1 : Mach := { m with dbg := { m.dbg with frzPin := false } }; m1.onLink Mach.maybeThaw
    else m.onLink fun m => (m.dbgCtl { ring := .r0, slice := 0, tcb := 0, dbg := true } (at_ 60 2)).1

/-- HALT (R612). -/
def execHalt (w : Who) (v : W64) (s : State) : Host.Outcome State Fault Refusal :=
  s.debugAccess fun m => m.dbgCtl w ((v &&& ~~~maskOf 63 60) ||| at_ 60 3)

/-- DEBUG_RESUME (R612). -/
def execDebugResume (w : Who) (v : W64) (s : State) : Host.Outcome State Fault Refusal :=
  s.debugAccess fun m => m.dbgCtl w ((v &&& ~~~maskOf 63 60) ||| at_ 60 4)

/-- DEBUG_LOWER (R572). -/
def execDebugLower (w : Who) (s : State) : Host.Outcome State Fault Refusal := s.debugAccess fun m => m.dbgCtl w (at_ 60 5)

end Sys2Proof.Machine
end

