-- ==== Sys2Proof/Machine/Regs.lean ====
section
/-! DEFINITION. Control space as a whole: which register an address names, block by block (R105), the registers of SYS, GRN, SCH and MBX,
and the debug, I2C and plain register accesses. -/

namespace Sys2Proof.Machine

/-! ## SYS -/

/-- Address of a SYS register. -/
def sysReg (off : Nat) : Nat := 0x200000000 + off

/-- A read of a SYS register: rings 0 and 1 (R6, R7, R103, R119). -/
def Mach.sysRead (m : Mach) (w : Who) (off : Nat) : Mach × RegOut :=
  m.readReg w.low (
    if off = 0 then sysId
    else if off = 8 then m.sys.grade.setWidth 64
    else if off = 0x20 then m.sys.rsvWord
    else if 0x100 ≤ off ∧ off < 0x120 then (tget FwProt.reset m.sys.fwprot ((off - 0x100) / 8)).word
    else 0)

/-- A write to SYS_FWPROT_k: ring 0, once (R103, R117). -/
def Mach.fwprotWrite (m : Mach) (w : Who) (k : Nat) (v : W64) : Mach × RegOut :=
  m.writeReg w (sysReg (0x100 + 8 * k)) v (rsvBits [(63, 63), (55, 0)]) w.zero true fun m =>
    if (tget FwProt.reset m.sys.fwprot k).locked then m
    else
      let f : FwProt := { valid := bit v 63, limit := v.extractLsb' 28 28, base := v.extractLsb' 0 28, locked := true }
      { m with sys := { m.sys with fwprot := tset m.sys.fwprot k f } }

/-- A write to a SYS register. -/
def Mach.sysWrite (m : Mach) (w : Who) (off : Nat) (v : W64) : Mach × RegOut :=
  if off = 0 then m.deadWrite w (sysReg off) v (rsvBits [(31, 16), (7, 0)])
  else if off = 8 then m.deadWrite w (sysReg off) v (rsvBits [(1, 0)])
  else if off = 0x20 then
    m.writeReg w (sysReg off) v (rsvBits [(63, 60), (55, 0)]) w.zero true fun m =>
      if bit v 63 then { m with sys := { m.sys with rsvFlag := false, rsvCount := 0 } } else m
  else if 0x100 ≤ off ∧ off < 0x120 then m.fwprotWrite w ((off - 0x100) / 8) v
  else m.idleWrite w (sysReg off) v (BitVec.allOnes 64)

/-! ## GRN -/

/-- Least floor of a class (R58). -/
def minFloor (c : Nat) : Nat := match c with
  | 0 => 512
  | 1 | 2 | 4 => 64
  | 3 => 192
  | _ => 0

/-- Does a floor and a ceiling for class c break the rule of R61? -/
def Mach.clsRefused (m : Mach) (c floor ceil : Nat) : Bool :=
  let others := (((List.range 7).filter (· != c)).map fun d => (m.cls d).floor).sum
  decide (floor < minFloor c) || decide (ceil < floor) || decide (12288 < others + floor) || (c == 6 && ceil != 4096)

/-- GRN_CLASS_c as it reads. -/
def Cls.word (c : Cls) : W64 := at_ 48 c.held ||| at_ 32 c.hwm ||| at_ 16 c.ceil ||| at_ 0 c.floor

/-- A write to GRN_CLASS_c: ring 0, once (R61, R118). -/
def Mach.clsWrite (m : Mach) (w : Who) (c : Nat) (v : W64) : Mach × RegOut :=
  let a := grnReg (0x200 + 8 * c)
  if (m.cls c).locked then m.writeReg w a v 0 w.zero true id
  else m.writeReg w a v 0 w.zero (!m.clsRefused c (fld v 15 0) (fld v 31 16)) fun m =>
    m.setCls c { m.cls c with floor := fld v 15 0, ceil := fld v 31 16, locked := true }

/-- GRN_BUF_k as it reads (R57). -/
def Buf.word (b : Buf) : W64 :=
  at_ 40 b.owner.toNat ||| at_ 37 b.cls ||| at_ 35 (match b.state with | .free => 0 | .owned => 1 | .transit => 2) |||
  flagAt 34 b.charged.isSome ||| at_ 26 (b.charged.getD 0)

/-- GRN_AUDIT_STAT as it reads (R78). -/
def Grn.auditWord (g : Grn) : W64 := at_ 32 g.audSlice ||| flagAt 16 g.audCpl ||| flagAt 14 g.audSub ||| g.audMask.setWidth 64

/-- A write to GRN_AUDIT_STAT clears its bits (R78). -/
def Mach.auditWrite (m : Mach) (w : Who) (v : W64) : Mach × RegOut :=
  m.writeReg w (grnReg 0x500) v (rsvBits [(39, 32), (16, 16), (14, 0)]) w.low true fun m =>
    let g := m.grn
    { m with grn := { g with audCpl := g.audCpl && !bit v 16, audSub := g.audSub && !bit v 14, audMask := g.audMask &&& ~~~(v.setWidth 14) } }

/-- A read of register r of ledger k: HWM restarts at HELD (R13, R75). -/
def Mach.ledgerRead (m : Mach) (k r : Nat) : Mach × W64 :=
  let l := m.ledger k
  match r with
  | 0 => (m, ledgerWord l.free l.held)
  | 1 => (m, l.cpl)
  | 2 => (m, at_ 32 l.transit ||| at_ 0 l.total)
  | _ => (m.setLedger k { l with hwm := l.held }, at_ 0 l.hwm)

/-- A read that rings 0 and 1 may make and that changes the machine. -/
def Mach.readStep (m : Mach) (may : Bool) (r : Mach × W64) : Mach × RegOut := if may then (r.1, .value r.2) else (m, .denied 1)

/-- A read of a GRN register; `thread` says that a thread's load waits for a held allocation. -/
def Mach.grnRead (m : Mach) (w : Who) (thread : Bool) (off : Nat) : Mach × RegOut :=
  if 0x8000 ≤ off ∧ off < 0x20000 then
    let b := m.buf ((off - 0x8000) / 8)
    (m, .value (if w.low || b.charged == some w.slice then b.word else 0))
  else if 0x2000 ≤ off ∧ off < 0x2800 then
    let s := (off - 0x2000) / 8
    let q := m.slq s
    (m, .value (if w.low || w.slice == s then at_ 16 q.quota ||| at_ 0 q.held else 0))
  else if 0x1000 ≤ off ∧ off < 0x11C0 then m.readStep w.low (m.ledgerRead ((off - 0x1000) / 0x20) (off / 8 % 4))
  else if 0x400 ≤ off ∧ off < 0x480 then m.allocRead w thread (off % 0x10 == 0) ((off - 0x400) / 0x10)
  else if 0x200 ≤ off ∧ off < 0x238 then
    let c := (off - 0x200) / 8
    m.readStep w.low (m.setCls c { m.cls c with hwm := (m.cls c).held }, (m.cls c).word)
  else if off = 0x488 then m.readStep w.low ({ m with grn := { m.grn with faultCnt := 0 } }, w64 m.grn.faultCnt)
  else m.readReg w.low (if off = 0x500 then m.grn.auditWord else 0)

/-- A write to a GRN register. -/
def Mach.grnWrite (m : Mach) (w : Who) (off : Nat) (v : W64) : Mach × RegOut :=
  let a := grnReg off
  if off = 0x480 then m.freeWrite w v
  else if off = 0x490 then m.giveWrite w v
  else if off = 0x500 then m.auditWrite w v
  else if off = 0x508 then m.recountWrite w v
  else if 0x200 ≤ off ∧ off < 0x238 then m.clsWrite w ((off - 0x200) / 8) v
  else if 0x400 ≤ off ∧ off < 0x480 then m.idleWrite w a v (rsvBits [(63, 60), (55, 16), (13, 0)])
  else if off = 0x488 then m.idleWrite w a v (rsvBits [(31, 0)])
  else if 0x1000 ≤ off ∧ off < 0x11C0 then m.idleWrite w a v (if off % 0x20 = 0x18 then rsvBits [(31, 0)] else 0)
  else if 0x2000 ≤ off ∧ off < 0x2800 then m.idleWrite w a v (rsvBits [(31, 0)])
  else if 0x8000 ≤ off ∧ off < 0x20000 then m.idleWrite w a v (rsvBits [(55, 26)])
  else m.idleWrite w a v (BitVec.allOnes 64)

/-! ## SCH -/

/-- A read of an SCH register (R177 to R199). -/
def Mach.schRead (m : Mach) (w : Who) (off : Nat) : Mach × RegOut :=
  if 0x80000 ≤ off then
    let k := (off - 0x80000) / 0x80
    let t := m.thr k
    (m, .value (if w.low || (t.state != .free && t.ofSlice && t.slice == w.slice) then t.field (off / 8 % 16) else 0))
  else if 0x10000 ≤ off ∧ off < 0x12000 then
    let e := (off - 0x10000) / 8
    let v := m.evt e
    (m, .value (if w.low || (softEvent e && v.assigned && v.slice == w.slice) then v.word else 0))
  else if 0x5000 ≤ off ∧ off < 0x5800 then m.tcbAllocRead w (some ((off - 0x5000) / 8))
  else if 0x4000 ≤ off ∧ off < 0x4800 then
    let s := (off - 0x4000) / 8
    if w.low || w.slice == s then m.readStep true (m.slobsRead s) else (m, .value 0)
  else if 0x3000 ≤ off ∧ off < 0x3240 then m.readReg w.low (m.busyWord ((off - 0x3000) / 8))
  else if 0x2000 ≤ off ∧ off < 0x2900 then m.readStep w.low (m.rdyRead ((off - 0x2000) / 0x100) (off / 8 % 32))
  else if off = 0 then m.tcbAllocRead w none
  else m.readReg w.low (
    if off = 0x100 then m.sch.obsStart
    else if off = 0x108 then m.sch.obsEnd
    else if off = 0x110 then flagAt 0 m.sch.obsDone
    else if 0x200 ≤ off ∧ off < 0x280 then (m.tmr ((off - 0x200) / 8)).cmp
    else 0)

/-- A write to an SCH register. -/
def Mach.schWrite (m : Mach) (w : Who) (off : Nat) (v : W64) : Mach × RegOut :=
  let a := schReg off
  if 0x80000 ≤ off then m.tcbWrite w ((off - 0x80000) / 0x80) (off / 8 % 16) v
  else if 0x10000 ≤ off ∧ off < 0x12000 then m.evtWrite w ((off - 0x10000) / 8) v
  else if off = 8 then m.schCtlWrite w v
  else if off = 0x100 then m.obsWrite w false v
  else if off = 0x108 then m.obsWrite w true v
  else if off = 0x110 then
    m.writeReg w a v (rsvBits [(0, 0)]) w.low true fun m => { m with sch := { m.sch with obsDone := m.sch.obsDone && !bit v 0 } }
  else if 0x200 ≤ off ∧ off < 0x280 then m.tmrWrite w ((off - 0x200) / 8) v
  else if off = 0 ∨ (0x5000 ≤ off ∧ off < 0x5800) then m.idleWrite w a v (rsvBits [(63, 60), (11, 0)])
  else if 0x2000 ≤ off ∧ off < 0x2900 then m.idleWrite w a v (rsvBits [(31, 0)])
  else if (0x3000 ≤ off ∧ off < 0x3240) ∨ (0x4000 ≤ off ∧ off < 0x4800) then m.idleWrite w a v 0
  else m.idleWrite w a v (BitVec.allOnes 64)

/-! ## MBX -/

/-- A read of register r of mailbox k (R202): MBX_m_TAKE and MBX_m_DBREAD are the receiver's alone; the others are read by rings 0
and 1 too (R104). -/
def Mach.boxRead (m : Mach) (w : Who) (k r : Nat) : Mach × RegOut :=
  let b := m.box k
  let snd := b.snd.admits w
  let rcv := b.rcv.admits w
  match r with
  | 0 | 3 => m.readReg (snd || w.low) 0
  | 1 => m.boxTake w k
  | 2 => m.readReg (snd || rcv || w.low) b.statWord
  | 4 => m.boxDbread w k
  | 5 => m.readReg (rcv || w.low) (b.dbmask.setWidth 64)
  | 6 => m.readReg (snd || rcv || w.low) (w64 b.tmo)
  | _ => m.readReg w.low b.bindWord

/-- A write to register r of mailbox k (R202, R204). -/
def Mach.boxWrite (m : Mach) (w : Who) (thread : Option Nat) (k r : Nat) (v : W64) : Mach × RegOut :=
  match r with
  | 0 => m.boxPost w thread k v
  | 1 => m.writeReg w (boxReg k 1) v 0 ((m.box k).rcv.admits w) true id
  | 2 => m.boxStatWrite w k v
  | 3 => m.boxBells w thread k v
  | 4 => m.writeReg w (boxReg k 4) v (rsvBits [(31, 0)]) ((m.box k).rcv.admits w) true id
  | 5 => m.boxMask w thread k v
  | 6 => m.boxTmo w k v
  | _ => m.boxBind w k v

/-- A read of an MBX register. -/
def Mach.mbxRead (m : Mach) (w : Who) (off : Nat) : Mach × RegOut :=
  if off < 0x800 then m.lockRead w (off / 8)
  else if off < 0x1000 then
    let l := m.lock ((off - 0x800) / 8)
    (m, .value (if w.low || (l.assigned && l.slice == w.slice) then l.word else 0))
  else if off = 0x1000 then m.readStep w.low ({ m with mbx := { m.mbx with lockFault := 0 } }, w64 m.mbx.lockFault)
  else if 0x10000 ≤ off ∧ off < 0x19000 then m.boxRead w ((off - 0x10000) / 0x40) (off / 8 % 8)
  else m.noRead w

/-- A write to an MBX register; `thread` is the thread that stores, if one does. -/
def Mach.mbxWrite (m : Mach) (w : Who) (thread : Option Nat) (off : Nat) (v : W64) : Mach × RegOut :=
  if off < 0x800 then m.lockWrite w (off / 8) v
  else if off < 0x1000 then m.lockCfg w ((off - 0x800) / 8) v
  else if off = 0x1000 then m.idleWrite w (mbxReg off) v (rsvBits [(31, 0)])
  else if 0x10000 ≤ off ∧ off < 0x19000 then m.boxWrite w thread ((off - 0x10000) / 0x40) (off / 8 % 8) v
  else m.idleWrite w (mbxReg off) v (BitVec.allOnes 64)

/-! ## The engines' blocks -/

/-- A read of an engine block with n engines, the first at port p (R420, R440). -/
def Mach.portRead (m : Mach) (w : Who) (p n off : Nat) : Mach × RegOut :=
  if off / 0x100 < n then m.engRegRead w (p + off / 0x100) (off % 0x100) else m.noRead w

/-- A write to an engine block at address a: ring 0. -/
def Mach.portWrite (m : Mach) (w : Who) (p n off a : Nat) (v : W64) : Mach × RegOut :=
  let r := off % 0x100
  if off / 0x100 < n then
    if r = 8 then m.offlineWrite w (p + off / 0x100) a v
    else m.deadWrite w a v (if r = 0 then rsvBits [(39, 32), (16, 0)] else if r = 0x10 ∨ r = 0x18 then 0 else BitVec.allOnes 64)
  else m.deadWrite w a v (BitVec.allOnes 64)

/-! ## Control space -/

/-- A read of the register at a control-space address (R105). -/
def Mach.regRead (m : Mach) (w : Who) (thread : Bool) (a : Nat) : Mach × RegOut :=
  let off := a % 0x100000
  match (a - 0x200000000) / 0x100000 with
  | 0x00 => m.sysRead w off
  | 0x01 => m.grnRead w thread off
  | 0x02 => m.schRead w off
  | 0x03 => m.mbxRead w off
  | 0x04 => m.lnkRead w off
  | 0x05 => m.hqRead w off
  | 0x06 => m.slcRead w off
  | 0x07 => m.mapRead w off
  | 0x08 => m.fchRead w off
  | 0x09 => m.portRead w 0x10 8 off
  | 0x0A => if off = 0x1000 then m.readReg w.low m.quarWord else m.portRead w 0x20 4 off
  | 0x0B => m.dgsRead w off
  | 0x0C => m.wnwRead w off
  | 0x0D => if off / 0x100 ≤ 8 then m.cchRead w (off / 0x100) (off % 0x100) else m.noRead w
  | 0x0E => m.eccRead w off
  | 0x0F => m.drcRead w off
  | 0x10 => m.fwaRead w off
  | 0x11 => m.pwrRead w off
  | 0x12 => m.dbgRead w off
  | 0x13 => m.tmbRead w off
  | _ => m.noRead w

/-- A write to the register at a control-space address. -/
def Mach.regWrite (m : Mach) (w : Who) (thread : Option Nat) (a : Nat) (v : W64) : Mach × RegOut :=
  let off := a % 0x100000
  match (a - 0x200000000) / 0x100000 with
  | 0x00 => m.sysWrite w off v
  | 0x01 => m.grnWrite w off v
  | 0x02 => m.schWrite w off v
  | 0x03 => m.mbxWrite w thread off v
  | 0x04 => m.lnkWrite w off v
  | 0x05 => m.hqWrite w off v
  | 0x06 => m.slcWrite w off v
  | 0x07 => m.mapWrite w off v
  | 0x08 => m.fchWrite w off v
  | 0x09 => m.portWrite w 0x10 8 off a v
  | 0x0A =>
    if off = 0x1000 then m.idleWrite w a v 0 else m.portWrite w 0x20 4 off a v
  | 0x0B => m.dgsWrite w off v
  | 0x0C => m.wnwWrite w off v
  | 0x0D => if off / 0x100 ≤ 8 then m.cchWrite w (off / 0x100) (off % 0x100) v else m.idleWrite w a v (BitVec.allOnes 64)
  | 0x0E => m.eccWrite w off v
  | 0x0F => m.drcWrite w off v
  | 0x10 => m.fwaWrite w off v
  | 0x11 => m.pwrWrite w off v
  | 0x12 => m.dbgWrite w off v
  | 0x13 => m.idleWrite w a v (if off = 0 then 0 else if off = 8 then rsvBits [(0, 0)] else BitVec.allOnes 64)
  | _ => m.idleWrite w a v (BitVec.allOnes 64)

/-- An aligned read of control space, or the bus error of R11 and R108. -/
def Mach.ctlRead (m : Mach) (w : Who) (thread : Bool) (a : Nat) : Mach × RegOut :=
  if regionOf a ≠ .control then (m, .bus 1) else if a % 8 ≠ 0 then (m, .bus 2) else m.regRead w thread a

/-- An aligned write of control space, or the bus error of R11 and R108. -/
def Mach.ctlWrite (m : Mach) (w : Who) (thread : Option Nat) (a : Nat) (v : W64) : Mach × RegOut :=
  if regionOf a ≠ .control then (m, .bus 1) else if a % 8 ≠ 0 then (m, .bus 2) else m.regWrite w thread a v

/-- REGISTER_WRITE (R11, R117, R118). -/
def execRegisterWrite (w : Who) (a : BitVec 40) (v : W64) (s : State) : Host.Outcome State Fault Refusal :=
  s.access fun m => m.ctlWrite w none a.toNat v

end Sys2Proof.Machine
end

