-- ==== Sys2Proof/Machine/Tap.lean ====
section
/-! DEFINITION. The test access port with its debug access (R614 to R616), and the I2C port (R626). -/

namespace Sys2Proof.Machine

/-! ## The test access port -/

/-- Select an instruction, whose data register captures a value. -/
def Tap.select (t : Tap) (ir : TapIr) (dr : BitVec 2696) : Tap := { t with ir := ir, dr := dr }

/-- The lands are driven from the boundary-scan latches (R614). -/
def State.drives (s : State) : Bool := (s.tap.ir == .extest || s.tap.ir == .clamp) && s.m.lands.nresetLow

/-- The lands float (R614). -/
def State.floats (s : State) : Bool := s.tap.ir == .highz && s.m.lands.nresetLow

/-- Length of the selected data register; EXTEST acts as BYPASS unless nRESET is low, DBGACC does at level 2 (R614, R615). -/
def State.drLength (s : State) : Nat :=
  match s.tap.ir with
  | .extest => if s.m.lands.nresetLow then 2696 else 1
  | .samplePreload => 2696
  | .idcode => 32
  | .dbgacc => if s.m.fwa.level = 2 then 1 else 106
  | .clamp | .highz | .bypass => 1

/-- A command that only the port sees. -/
def State.onTap (s : State) (f : Tap → Tap) : Host.Outcome State Fault Refusal := .next { s with tap := f s.tap }

/-- The data register of DBGACC as it captures the last access (R615). -/
def Dbg.capture (d : Dbg) : BitVec 106 := (BitVec.ofBool d.accOk ++ (0 : BitVec 1) ++ d.accAddr ++ d.accData)

/-- The debug port as a requester. -/
def dbgWho : Who := { ring := .r0, slice := 0, tcb := 0, dbg := true }

/-- What a debug access comes to: its data, or no value and whether it raises event 996. -/
inductive DbgOut where
  | ok (v : W64)
  | refused
deriving DecidableEq, Repr

/-- Is a read masked at level 1 (R615)? -/
def Mach.dbgMasked (m : Mach) (a : Nat) : Bool :=
  match regionOf a with
  | .fwa => true
  | .granary => let k := (m.buf (bufAt a)).owner.extractLsb' 12 4; k == 0x1 || k == 0xB
  | _ => false

/-- Does the address name a word of a core's state that is not shown now (R616)? -/
def Mach.coreHidden (m : Mach) (a : Nat) : Bool :=
  decide (dbgReg 0 ≤ a ∧ a < dbgReg 0x100000) &&
    (match coreWordOf (a - dbgReg 0) with
     | some (c, _) => !m.coreShown c
     | none => false)

/-- A register access as a debug access. -/
def DbgOut.ofReg (r : Mach × RegOut) : Mach × DbgOut :=
  (r.1, match r.2 with
    | .value v => .ok v
    | .done => .ok 0
    | _ => .refused)

/-- One 64-bit debug read, past every cache (R615). -/
def Mach.dbgGet (m : Mach) (a : Nat) : Mach × DbgOut :=
  if a % 8 ≠ 0 || (m.fwa.level == 1 && m.dbgMasked a) || m.coreHidden a then (m, .refused)
  else match regionOf a with
    | .control => DbgOut.ofReg (m.regRead dbgWho false a)
    | r =>
      let dram := match r with | .dram _ => true | _ => false
      if dram && m.dbg.frozen then (m, .refused)
      else
        let (m1, x) := m.readBytes a 8
        (m1, match x with | .ok b => .ok (w64 (leNat b)) | _ => .refused)

/-- One 64-bit debug write, past every cache (R615). -/
def Mach.dbgPut (m : Mach) (a : Nat) (v : W64) : Mach × DbgOut :=
  if a % 8 ≠ 0 || (m.fwa.level == 1 && !decide (dbgReg 0 ≤ a ∧ a < dbgReg 0x100000)) then (m, .refused)
  else match regionOf a with
    | .control => DbgOut.ofReg (m.regWrite dbgWho none a v)
    | _ => match m.storeReady a with
      | .ok _ => (m.storeMem a (leBytes 8 v.toNat), .ok 0)
      | _ => (m, .refused)

/-- A debug access: the record of it, and event 996 where it was refused or masked (R615, R618). -/
def Mach.dbgUpdate (m : Mach) (v : BitVec 106) : Mach :=
  let a := v.extractLsb' 64 40
  let d := v.extractLsb' 0 64
  let wr := v.getLsbD 104
  let r := if wr then m.dbgPut a.toNat d else m.dbgGet a.toNat
  let ok := r.2 != .refused
  let data := match r.2 with
    | .ok x => if wr then d else x
    | .refused => 0
  let m1 : Mach := { r.1 with dbg := { r.1.dbg with accOk := ok, accAddr := a, accData := data } }
  if ok then m1 else m1.raise 996

/-- The module is in reset or has not booted: the fabric answers no port. -/
def Mach.dark (m : Mach) : Bool := m.pwr.hotReset || m.pwr.noVin || m.lands.nresetLow || !m.booted

/-- DBGACC_UPDATE (R615): it acts while DBGACC is selected, below level 2. The debug port works in a freeze. A module in reset performs
no access. -/
def execDbgaccUpdate (v : BitVec 106) (s : State) : Host.Outcome State Fault Refusal :=
  if s.tap.ir = .dbgacc ∧ s.m.fwa.level ≠ 2 then
    let m1 : Mach :=
      if s.m.dark then { s.m with dbg := { s.m.dbg with accOk := false, accAddr := v.extractLsb' 64 40, accData := 0 } }
      else s.m.dbgUpdate v
    .next { s with m := m1, tap := { s.tap with dr := m1.dbg.capture.setWidth 2696 } }
  else .next s

/-- EXTEST (R614). -/
def execExtest (s : State) : Host.Outcome State Fault Refusal :=
  s.onTap fun t => t.select .extest (if s.m.lands.nresetLow then t.bsr else 0)

/-- SAMPLE/PRELOAD (R614): the boundary-scan register takes what was shifted in. -/
def execSamplePreload (v : BitVec 2696) (s : State) : Host.Outcome State Fault Refusal :=
  s.onTap fun t => { t.select .samplePreload v with bsr := v }

/-- IDCODE (R6, R614). -/
def execIdcode (s : State) : Host.Outcome State Fault Refusal := s.onTap fun t => t.select .idcode 0x1B96A0F3

/-- CLAMP (R614). -/
def execClamp (s : State) : Host.Outcome State Fault Refusal := s.onTap fun t => t.select .clamp 0

/-- HIGHZ (R614). -/
def execHighz (s : State) : Host.Outcome State Fault Refusal := s.onTap fun t => t.select .highz 0

/-- DBGACC (R614, R615). -/
def execDbgacc (s : State) : Host.Outcome State Fault Refusal :=
  s.onTap fun t => t.select .dbgacc (if s.m.fwa.level = 2 then 0 else s.m.dbg.capture.setWidth 2696)

/-- BYPASS (R614). -/
def execBypass (s : State) : Host.Outcome State Fault Refusal := s.onTap fun t => t.select .bypass 0

/-- TEST_LOGIC_RESET (R614): IDCODE is selected. -/
def execTestLogicReset (s : State) : Host.Outcome State Fault Refusal := s.onTap fun t => t.select .idcode 0x1B96A0F3

/-! ## The I2C port -/

/-- The registers that the port reads (R626). -/
def i2cList : List Nat :=
  [0x200000000, 0x200000008, 0x201300000, 0x200400000, 0x200E00050, 0x201000030, 0x201100000, 0x201100048, 0x201100030, 0x201100058,
   0x201100060, 0x201100068]

/-- I2C_READ (R626): one access, with no effect on any register. In a freeze the port stretches the clock until thaw (R605). -/
def execI2cRead (a : BitVec 40) (s : State) : Host.Outcome State Fault Refusal :=
  s.act fun m =>
    if m.dark then { m with lands := { m.lands with i2cNack := true } }
    else if m.dbg.frozen then m
    else if i2cList.contains a.toNat then
      match (m.regRead { ring := .r0, slice := 0, tcb := 0, dbg := false } false a.toNat).2 with
      | .value v => { m with lands := { m.lands with i2c := v, i2cNack := false } }
      | _ => m
    else { m with lands := { m.lands with i2cNack := true } }

end Sys2Proof.Machine
end

