-- ==== Sys2Proof/Machine/LoadStore.lean ====
section
/-! DEFINITION. Loads and stores (R97 to R101, R109 step 5, R135, R136). -/

namespace Sys2Proof.Machine

/-- Does a 64-bit address name control space? -/
def isControl (a : W64) : Bool := in40 a && regionOf a.toNat == .control

/-- Conditions of an access of n bytes outside control space that come before its window check: its exception (R97, R98, R100, R109). -/
def Mach.addrFault (m : Mach) (k : Nat) (a : W64) (n : Nat) : Option (Nat × Nat) :=
  if a.toNat % n ≠ 0 then some (4, 0)
  else if in40 a then none
  else if (m.thr k).ring = .r0 then some (5, 1) else some (3, 5)

/-- A register access as an access of a thread. -/
def RegOut.toAcc (r : RegOut) (a : W64) : Acc W64 :=
  match r with
  | .value v => .ok v
  | .done => .ok 0
  | .denied d => .fault 7 d a
  | .bus d => .fault 5 d a
  | .integrity c => .fault 8 c a
  | .hold => .wait

/-- Thread k on core c reads n bytes at an address. -/
def Mach.readAt (m : Mach) (c k : Nat) (a : W64) (n : Nat) : Mach × Acc W64 :=
  if isControl a then
    if n ≠ 8 ∨ a.toNat % 8 ≠ 0 then (m, .fault 5 2 a)
    else let r := m.regRead (m.who k) true a.toNat; (r.1, r.2.toAcc a)
  else match m.addrFault k a n with
    | some (x, d) => (m, .fault x d a)
    | none =>
      let (m1, r) := m.loadMem c k a.toNat n
      (m1, match r with
        | .ok b => .ok (w64 (leNat b))
        | .fault x d y => .fault x d y
        | .wait => .wait)

/-- Thread k on core c writes the low n bytes of a value at an address. -/
def Mach.writeAt (m : Mach) (c k : Nat) (a : W64) (n : Nat) (v : W64) : Mach × Acc Unit :=
  if isControl a then
    if n ≠ 8 ∨ a.toNat % 8 ≠ 0 then (m, .fault 5 2 a)
    else
      let r := m.regWrite (m.who k) (some k) a.toNat v
      (r.1, match r.2.toAcc a with
        | .ok _ => .ok ()
        | .fault x d y => .fault x d y
        | .wait => .wait)
  else match m.addrFault k a n with
    | some (x, d) => (m, .fault x d a)
    | none => m.storeMemAs c k a.toNat (leBytes n v.toNat)

/-- Effective address of a load or store (R135). -/
def Thr.effAddr (t : Thr) (ra : BitVec 5) (imm : BitVec 12) : W64 := t.gr ra + sx imm

/-- A load of n bytes into rd, its value formed by `f` (R135). A load of GRN_ALLOC_c that holds keeps its thread on the core (R62). -/
def Mach.load (m : Mach) (c : Fin 72) (gd : BitVec 4) (i : Instr) (rd ra : BitVec 5) (imm : BitVec 12) (n : Nat) (f : W64 → W64) : Mach :=
  m.insn c gd i fun m k =>
    let a := (m.thr k).effAddr ra imm
    match m.readAt c k a n with
    | (m1, .ok v) => .done (m1.modThr k fun t => t.deliver rd (f v))
    | (m1, .fault x d y) => .exc m1 x d y
    | (m1, .wait) =>
      if isControl a then .stay (m1.modThr k fun t => { t with hold := .alloc (a.toNat % 0x80 / 0x10) rd }) else .stay m1

/-- A store of the low n bytes of rd (R135). A store that takes its own thread off the core ends there. -/
def Mach.store (m : Mach) (c : Fin 72) (gd : BitVec 4) (i : Instr) (rd ra : BitVec 5) (imm : BitVec 12) (n : Nat) : Mach :=
  m.insn c gd i fun m k =>
    match m.writeAt c k ((m.thr k).effAddr ra imm) n ((m.thr k).gr rd) with
    | (m1, .ok _) => if (m1.core c).thr = some k then .done m1 else .stay m1
    | (m1, .fault x d y) => .exc m1 x d y
    | (m1, .wait) => .stay m1

/-- LD.B (R135): 1 byte, zero-extended. -/
def execLdB (c : Fin 72) (gd : BitVec 4) (rd ra : BitVec 5) (imm : BitVec 12) (s : State) : Host.Outcome State Fault Refusal :=
  s.act fun m => m.load c gd (.ldB c gd rd ra imm) rd ra imm 1 id

/-- LD.H (R135): 2 bytes, zero-extended. -/
def execLdH (c : Fin 72) (gd : BitVec 4) (rd ra : BitVec 5) (imm : BitVec 12) (s : State) : Host.Outcome State Fault Refusal :=
  s.act fun m => m.load c gd (.ldH c gd rd ra imm) rd ra imm 2 id

/-- LD.W (R135): 4 bytes, zero-extended. -/
def execLdW (c : Fin 72) (gd : BitVec 4) (rd ra : BitVec 5) (imm : BitVec 12) (s : State) : Host.Outcome State Fault Refusal :=
  s.act fun m => m.load c gd (.ldW c gd rd ra imm) rd ra imm 4 id

/-- LD.D (R135): 8 bytes, whole. -/
def execLdD (c : Fin 72) (gd : BitVec 4) (rd ra : BitVec 5) (imm : BitVec 12) (s : State) : Host.Outcome State Fault Refusal :=
  s.act fun m => m.load c gd (.ldD c gd rd ra imm) rd ra imm 8 id

/-- LD.BS (R135): 1 byte, sign-extended. -/
def execLdBs (c : Fin 72) (gd : BitVec 4) (rd ra : BitVec 5) (imm : BitVec 12) (s : State) : Host.Outcome State Fault Refusal :=
  s.act fun m => m.load c gd (.ldBs c gd rd ra imm) rd ra imm 1 (sextLow 8)

/-- LD.HS (R135): 2 bytes, sign-extended. -/
def execLdHs (c : Fin 72) (gd : BitVec 4) (rd ra : BitVec 5) (imm : BitVec 12) (s : State) : Host.Outcome State Fault Refusal :=
  s.act fun m => m.load c gd (.ldHs c gd rd ra imm) rd ra imm 2 (sextLow 16)

/-- LD.WS (R135): 4 bytes, sign-extended. -/
def execLdWs (c : Fin 72) (gd : BitVec 4) (rd ra : BitVec 5) (imm : BitVec 12) (s : State) : Host.Outcome State Fault Refusal :=
  s.act fun m => m.load c gd (.ldWs c gd rd ra imm) rd ra imm 4 (sextLow 32)

/-- ST.B (R135): the low 1 byte of rd. -/
def execStB (c : Fin 72) (gd : BitVec 4) (rd ra : BitVec 5) (imm : BitVec 12) (s : State) : Host.Outcome State Fault Refusal :=
  s.act fun m => m.store c gd (.stB c gd rd ra imm) rd ra imm 1

/-- ST.H (R135): the low 2 bytes of rd. -/
def execStH (c : Fin 72) (gd : BitVec 4) (rd ra : BitVec 5) (imm : BitVec 12) (s : State) : Host.Outcome State Fault Refusal :=
  s.act fun m => m.store c gd (.stH c gd rd ra imm) rd ra imm 2

/-- ST.W (R135): the low 4 bytes of rd. -/
def execStW (c : Fin 72) (gd : BitVec 4) (rd ra : BitVec 5) (imm : BitVec 12) (s : State) : Host.Outcome State Fault Refusal :=
  s.act fun m => m.store c gd (.stW c gd rd ra imm) rd ra imm 4

/-- ST.D (R135): the low 8 bytes of rd. -/
def execStD (c : Fin 72) (gd : BitVec 4) (rd ra : BitVec 5) (imm : BitVec 12) (s : State) : Host.Outcome State Fault Refusal :=
  s.act fun m => m.store c gd (.stD c gd rd ra imm) rd ra imm 8

end Sys2Proof.Machine
end

