-- ==== Sys2Proof/Machine/Block.lean ====
section
/-! DEFINITION. Block-repeat instructions (R145 to R149). -/

namespace Sys2Proof.Machine

/-- What one element of a block-repeat instruction comes to. -/
inductive Elem where
  /-- done: the next element follows -/
  | next (m : Mach)
  /-- the search ends at this element: a difference (CMP.BLK) or a hit (SCAN.BLK) -/
  | found (m : Mach)
  | exc (m : Mach) (cause detail : Nat) (xa : W64)
  /-- the access holds, or the thread has left its core -/
  | wait (m : Mach)

/-- Advance the count and the named addresses past one element of n bytes (R146). -/
def Thr.pastElem (t : Thr) (src dst : Bool) (n : Nat) : Thr :=
  let t1 := if src then t.gw 25 (t.gr 25 + w64 n) else t
  let t2 := if dst then t1.gw 26 (t1.gr 26 + w64 n) else t1
  t2.gw 24 (t2.gr 24 - 1)

/-- Read the element of n bytes at an address, then go on. A held access leaves no trace: the element is tried again. -/
def Mach.elemRead (m : Mach) (c k : Nat) (a : W64) (n : Nat) (f : Mach → W64 → Elem) : Elem :=
  match m.readAt c k a n with
  | (m1, .ok v) => f m1 v
  | (m1, .fault x d y) => .exc m1 x d y
  | (_, .wait) => .wait m

/-- Write the element of n bytes at an address, then go on. -/
def Mach.elemWrite (m : Mach) (c k : Nat) (a : W64) (n : Nat) (v : W64) (f : Mach → Elem) : Elem :=
  match m.writeAt c k a n v with
  | (m1, .ok _) => if (m1.core c).thr = some k then f m1 else .wait m1
  | (m1, .fault x d y) => .exc m1 x d y
  | (_, .wait) => .wait m

/-- One element of MOV.BLK. -/
def elemMov (c k n : Nat) (m : Mach) : Elem :=
  m.elemRead c k ((m.thr k).gr 25) n fun m v =>
    m.elemWrite c k ((m.thr k).gr 26) n v fun m => .next (m.modThr k fun t => t.pastElem true true n)

/-- One element of FILL.BLK. -/
def elemFill (c k n : Nat) (m : Mach) : Elem :=
  m.elemWrite c k ((m.thr k).gr 26) n ((m.thr k).gr 27) fun m => .next (m.modThr k fun t => t.pastElem false true n)

/-- One element of CMP.BLK. -/
def elemCmp (c k n : Nat) (m : Mach) : Elem :=
  m.elemRead c k ((m.thr k).gr 25) n fun m v =>
    m.elemRead c k ((m.thr k).gr 26) n fun m w =>
      if v = w then .next (m.modThr k fun t => t.pastElem true true n) else .found m

/-- One element of SCAN.BLK. -/
def elemScan (ne : Bool) (c k n : Nat) (m : Mach) : Elem :=
  m.elemRead c k ((m.thr k).gr 25) n fun m v =>
    if (v == zextLow (8 * n) ((m.thr k).gr 27)) ^^ ne then .found m else .next (m.modThr k fun t => t.pastElem true false n)

/-- One element of CRC.BLK. -/
def elemCrc (pp : BitVec 2) (c k : Nat) (m : Mach) : Elem :=
  m.elemRead c k ((m.thr k).gr 25) 1 fun m v =>
    .next (m.modThr k fun t => (t.gw 27 (crcStep pp 0 (t.gr 27) v)).pastElem true false 1)

/-- How a run of elements ended. -/
inductive BlkEnd where
  /-- the given number of elements is done -/
  | ran (m : Mach)
  | found (m : Mach)
  | exc (m : Mach) (cause detail : Nat) (xa : W64)
  | wait (m : Mach)

/-- Process n elements in order. -/
def blkRun (f : Mach → Elem) : Nat → Mach → BlkEnd
  | 0, m => .ran m
  | n + 1, m =>
    match f m with
    | .next m1 => blkRun f n m1
    | .found m1 => .found m1
    | .exc m1 x d y => .exc m1 x d y
    | .wait m1 => .wait m1

/-- A block-repeat instruction (R145 to R148): every element that g24 counts. While a freeze is being entered it may stop at any element
boundary, after a free number of elements; it retires when the last is done. `fin` sets what completion sets: its argument says whether
the search ended at an element. -/
def Mach.block (m : Mach) (c : Fin 72) (gd : BitVec 4) (i : Instr) (elem : Nat → Mach → Elem) (fin : Thr → Bool → Thr) : Mach :=
  m.insn c gd i fun m k =>
    let n := ((m.thr k).gr 24).toNat
    let (r, m1) := if m.dbg.entering then m.draw (n + 1) else (n, m)
    match blkRun (elem k) r m1 with
    | .ran m2 => if r = n then .done (m2.modThr k fun t => fin t false) else .stay m2
    | .found m2 => .done (m2.modThr k fun t => fin t true)
    | .exc m2 x d y => .exc m2 x d y
    | .wait m2 => .stay m2

/-- MOV.BLK (R146). -/
def execMovBlk (c : Fin 72) (gd : BitVec 4) (esz : BitVec 2) (s : State) : Host.Outcome State Fault Refusal :=
  s.act fun m => m.block c gd (.movBlk c gd esz) (fun k => elemMov c k (eszBytes esz)) fun t _ => t

/-- FILL.BLK (R146). -/
def execFillBlk (c : Fin 72) (gd : BitVec 4) (esz : BitVec 2) (s : State) : Host.Outcome State Fault Refusal :=
  s.act fun m => m.block c gd (.fillBlk c gd esz) (fun k => elemFill c k (eszBytes esz)) fun t _ => t

/-- CMP.BLK (R146): pd is 1 when no element differed. -/
def execCmpBlk (c : Fin 72) (gd : BitVec 4) (pd : BitVec 3) (esz : BitVec 2) (s : State) : Host.Outcome State Fault Refusal :=
  s.act fun m => m.block c gd (.cmpBlk c gd pd esz) (fun k => elemCmp c k (eszBytes esz)) fun t found => t.pw pd (!found)

/-- SCAN.BLK (R146): pd is 1 on a hit. -/
def execScanBlk (c : Fin 72) (gd : BitVec 4) (pd : BitVec 3) (esz : BitVec 2) (ne : Bool) (s : State) :
    Host.Outcome State Fault Refusal :=
  s.act fun m => m.block c gd (.scanBlk c gd pd esz ne) (fun k => elemScan ne c k (eszBytes esz)) fun t found => t.pw pd found

/-- CRC.BLK (R146). -/
def execCrcBlk (c : Fin 72) (gd : BitVec 4) (poly : BitVec 2) (s : State) : Host.Outcome State Fault Refusal :=
  s.act fun m => m.block c gd (.crcBlk c gd poly) (fun k => elemCrc poly c k) fun t _ => t

end Sys2Proof.Machine
end

