-- ==== Sys2Proof/Machine/Control.lean ====
section
/-! DEFINITION. Branches and jumps, RESUME, special registers, undefined words and the end of an instruction budget
(R111, R115, R137 to R139, R150, R494). -/

namespace Sys2Proof.Machine

/-- A pc-relative transfer (R137): a target outside 40 bits is a BUS-ERROR on the branch itself. -/
def branchBody (off : BitVec 22) (f : Thr → Thr) (m : Mach) (k : Nat) : Res :=
  let tgt := branchTarget (m.thr k).pc off
  if in40 tgt then .jump (m.modThr k f) (pcOf tgt) else .exc m 5 1 tgt

/-- A jump to a register (R139): alignment first, then range; the fault is on the jump itself. -/
def jumpBody (ra : BitVec 5) (f : Thr → Thr) (m : Mach) (k : Nat) : Res :=
  let tgt := (m.thr k).gr ra
  if tgt.toNat % 4 ≠ 0 then .exc m 4 0 tgt
  else if !in40 tgt then .exc m 5 1 tgt
  else .jump (m.modThr k f) (pcOf tgt)

/-- The address after the executing instruction, as a link value: pc + 4. -/
def Thr.link (t : Thr) : W64 := pcVal t.pc + 4

/-- BR (R137). -/
def execBr (c : Fin 72) (gd : BitVec 4) (off : BitVec 22) (s : State) : Host.Outcome State Fault Refusal :=
  s.act fun m => m.insn c gd (.br c gd off) (branchBody off id)

/-- BL (R137): the link goes to g31. -/
def execBl (c : Fin 72) (gd : BitVec 4) (off : BitVec 22) (s : State) : Host.Outcome State Fault Refusal :=
  s.act fun m => m.insn c gd (.bl c gd off) (branchBody off fun t => t.gw 31 t.link)

/-- JR (R139). -/
def execJr (c : Fin 72) (gd : BitVec 4) (ra : BitVec 5) (s : State) : Host.Outcome State Fault Refusal :=
  s.act fun m => m.insn c gd (.jr c gd ra) (jumpBody ra id)

/-- JLR (R139): the link goes to rd, the target is the old ra. -/
def execJlr (c : Fin 72) (gd : BitVec 4) (rd ra : BitVec 5) (s : State) : Host.Outcome State Fault Refusal :=
  s.act fun m => m.insn c gd (.jlr c gd rd ra) (jumpBody ra fun t => t.gw rd t.link)

/-- RESUME (R111): the return from an exception; ILLEGAL-INSTRUCTION with TS_EXC clear. -/
def execResume (c : Fin 72) (gd : BitVec 4) (s : State) : Host.Outcome State Fault Refusal :=
  s.act fun m => m.insn c gd (.resume c gd) fun m k => if (m.thr k).exc then .resume m else .exc m 1 0 0

/-- The value that MFS gives for special register n; the time base is read at the instruction (R33, R89 to R93, R150). -/
def Mach.special (m : Mach) (k n : Nat) : W64 :=
  let t := m.thr k
  match n with
  | 0 => t.pl
  | 1 => t.ph
  | 2 => pcVal t.pc
  | 3 => w64 m.tb
  | 4 => t.ts k
  | 5 => pcVal t.xpc
  | 6 => t.xc
  | 7 => t.xa
  | _ => tget 0 t.wn (n - 8)

/-- MFS (R150): wn0 to wn7 are absent in rings 0 and 1. -/
def execMfs (c : Fin 72) (gd : BitVec 4) (rd sr : BitVec 5) (s : State) : Host.Outcome State Fault Refusal :=
  s.act fun m => m.insn c gd (.mfs c gd rd sr) fun m k =>
    if 8 ≤ sr.toNat ∧ (m.thr k).ring ≠ .r2 then .exc m 2 1 0
    else .done (m.modThr k fun t => t.gw rd (m.special k sr.toNat))

/-- MTS (R150): pl, ph or xpc; the bits of xpc outside [39:2] are ignored (R92). -/
def execMts (c : Fin 72) (gd : BitVec 4) (sr ra : BitVec 5) (s : State) : Host.Outcome State Fault Refusal :=
  s.act fun m => m.insn c gd (.mts c gd sr ra) (regBody fun t =>
    let v := t.gr ra
    if sr = 0 then { t with pl := v } else if sr = 1 then { t with ph := v } else { t with xpc := pcOf v })

/-- ILLEGAL_INSTRUCTION (R115): the exception of a word that encodes no instruction. A word that encodes one is not this command. -/
def execIllegalInstruction (c : Fin 72) (word : W32) (s : State) : Host.Outcome State Fault Refusal :=
  s.act fun m =>
    if (decodeInsn c word).isSome then m
    else m.insn c (word.extractLsb' 28 4) (.illegalInstruction c word) fun m _ => .exc m 1 0 0

/-- INSNMAX_EXCEEDED (R494, R502): a filter thread that has retired its whole budget is stopped precisely, as R112 stops a thread;
its command ends as a program fault with cause 0x00 and detail 0x02. -/
def execInsnmaxExceeded (c : Fin 72) (s : State) : Host.Outcome State Fault Refusal :=
  s.act fun m => m.fabric fun m =>
    match (m.core c).thr with
    | none => m
    | some k =>
      if (m.thr k).state == .running && m.spent k then m.stopThread k 0 0 2 else m

end Sys2Proof.Machine
end

