-- ==== Sys2Proof/Machine/Integer.lean ====
section
/-! DEFINITION. Integer, predicate, multiply, divide, bit and CRC instructions (R130 to R134, R140 to R143). -/

namespace Sys2Proof.Machine

/-- An instruction that writes a value of the thread's own registers to rd. -/
def Mach.alu (m : Mach) (c : Fin 72) (gd : BitVec 4) (i : Instr) (rd : BitVec 5) (f : Thr → W64) : Mach :=
  m.insn c gd i (regBody fun t => t.gw rd (f t))

/-- An instruction that sets a predicate from the thread's own registers. -/
def Mach.setsPred (m : Mach) (c : Fin 72) (gd : BitVec 4) (i : Instr) (pd : BitVec 3) (f : Thr → Bool) : Mach :=
  m.insn c gd i (regBody fun t => t.pw pd (f t))

/-- A product goes into flight: it lands just after the third retired instruction that follows, so four retirements count
it down, its own among them (R121). -/
def Thr.issueProduct (t : Thr) (p : W64 × W64) : Thr := { t with prods := t.prods ++ [{ left := 4, hi := p.1, lo := p.2 }] }

/-- ADD (R130): sum modulo 2^64. -/
def execAdd (c : Fin 72) (gd : BitVec 4) (rd ra rb : BitVec 5) (s : State) : Host.Outcome State Fault Refusal :=
  s.act fun m => m.alu c gd (.add c gd rd ra rb) rd fun t => t.gr ra + t.gr rb

/-- SUB (R130): difference modulo 2^64. -/
def execSub (c : Fin 72) (gd : BitVec 4) (rd ra rb : BitVec 5) (s : State) : Host.Outcome State Fault Refusal :=
  s.act fun m => m.alu c gd (.sub c gd rd ra rb) rd fun t => t.gr ra - t.gr rb

/-- AND (R130): bitwise AND. -/
def execAnd (c : Fin 72) (gd : BitVec 4) (rd ra rb : BitVec 5) (s : State) : Host.Outcome State Fault Refusal :=
  s.act fun m => m.alu c gd (.and c gd rd ra rb) rd fun t => t.gr ra &&& t.gr rb

/-- OR (R130): bitwise OR. -/
def execOr (c : Fin 72) (gd : BitVec 4) (rd ra rb : BitVec 5) (s : State) : Host.Outcome State Fault Refusal :=
  s.act fun m => m.alu c gd (.or c gd rd ra rb) rd fun t => t.gr ra ||| t.gr rb

/-- XOR (R130): bitwise XOR. -/
def execXor (c : Fin 72) (gd : BitVec 4) (rd ra rb : BitVec 5) (s : State) : Host.Outcome State Fault Refusal :=
  s.act fun m => m.alu c gd (.xor c gd rd ra rb) rd fun t => t.gr ra ^^^ t.gr rb

/-- ANDN (R130): ra AND NOT rb. -/
def execAndn (c : Fin 72) (gd : BitVec 4) (rd ra rb : BitVec 5) (s : State) : Host.Outcome State Fault Refusal :=
  s.act fun m => m.alu c gd (.andn c gd rd ra rb) rd fun t => t.gr ra &&& ~~~(t.gr rb)

/-- SHL (R130): left shift by rb[5:0]. -/
def execShl (c : Fin 72) (gd : BitVec 4) (rd ra rb : BitVec 5) (s : State) : Host.Outcome State Fault Refusal :=
  s.act fun m => m.alu c gd (.shl c gd rd ra rb) rd fun t => shiftBy 0 (t.gr ra) (amount (t.gr rb))

/-- SHR (R130): right shift with zero fill. -/
def execShr (c : Fin 72) (gd : BitVec 4) (rd ra rb : BitVec 5) (s : State) : Host.Outcome State Fault Refusal :=
  s.act fun m => m.alu c gd (.shr c gd rd ra rb) rd fun t => shiftBy 1 (t.gr ra) (amount (t.gr rb))

/-- SAR (R130): right shift with sign fill. -/
def execSar (c : Fin 72) (gd : BitVec 4) (rd ra rb : BitVec 5) (s : State) : Host.Outcome State Fault Refusal :=
  s.act fun m => m.alu c gd (.sar c gd rd ra rb) rd fun t => shiftBy 2 (t.gr ra) (amount (t.gr rb))

/-- ROR (R130): right rotation. -/
def execRor (c : Fin 72) (gd : BitVec 4) (rd ra rb : BitVec 5) (s : State) : Host.Outcome State Fault Refusal :=
  s.act fun m => m.alu c gd (.ror c gd rd ra rb) rd fun t => shiftBy 3 (t.gr ra) (amount (t.gr rb))

/-- MIN (R130): signed minimum. -/
def execMin (c : Fin 72) (gd : BitVec 4) (rd ra rb : BitVec 5) (s : State) : Host.Outcome State Fault Refusal :=
  s.act fun m => m.alu c gd (.min c gd rd ra rb) rd fun t => minS (t.gr ra) (t.gr rb)

/-- MAX (R130): signed maximum. -/
def execMax (c : Fin 72) (gd : BitVec 4) (rd ra rb : BitVec 5) (s : State) : Host.Outcome State Fault Refusal :=
  s.act fun m => m.alu c gd (.max c gd rd ra rb) rd fun t => maxS (t.gr ra) (t.gr rb)

/-- MINU (R130): unsigned minimum. -/
def execMinu (c : Fin 72) (gd : BitVec 4) (rd ra rb : BitVec 5) (s : State) : Host.Outcome State Fault Refusal :=
  s.act fun m => m.alu c gd (.minu c gd rd ra rb) rd fun t => minU (t.gr ra) (t.gr rb)

/-- MAXU (R130): unsigned maximum. -/
def execMaxu (c : Fin 72) (gd : BitVec 4) (rd ra rb : BitVec 5) (s : State) : Host.Outcome State Fault Refusal :=
  s.act fun m => m.alu c gd (.maxu c gd rd ra rb) rd fun t => maxU (t.gr ra) (t.gr rb)

/-- SEXT.B (R130): low byte sign-extended. -/
def execSextB (c : Fin 72) (gd : BitVec 4) (rd ra : BitVec 5) (s : State) : Host.Outcome State Fault Refusal :=
  s.act fun m => m.alu c gd (.sextB c gd rd ra) rd fun t => sextLow 8 (t.gr ra)

/-- SEXT.H (R130): low 16 bits sign-extended. -/
def execSextH (c : Fin 72) (gd : BitVec 4) (rd ra : BitVec 5) (s : State) : Host.Outcome State Fault Refusal :=
  s.act fun m => m.alu c gd (.sextH c gd rd ra) rd fun t => sextLow 16 (t.gr ra)

/-- SEXT.W (R130): low 32 bits sign-extended. -/
def execSextW (c : Fin 72) (gd : BitVec 4) (rd ra : BitVec 5) (s : State) : Host.Outcome State Fault Refusal :=
  s.act fun m => m.alu c gd (.sextW c gd rd ra) rd fun t => sextLow 32 (t.gr ra)

/-- ZEXT.B (R130): low byte zero-extended. -/
def execZextB (c : Fin 72) (gd : BitVec 4) (rd ra : BitVec 5) (s : State) : Host.Outcome State Fault Refusal :=
  s.act fun m => m.alu c gd (.zextB c gd rd ra) rd fun t => zextLow 8 (t.gr ra)

/-- ZEXT.H (R130): low 16 bits zero-extended. -/
def execZextH (c : Fin 72) (gd : BitVec 4) (rd ra : BitVec 5) (s : State) : Host.Outcome State Fault Refusal :=
  s.act fun m => m.alu c gd (.zextH c gd rd ra) rd fun t => zextLow 16 (t.gr ra)

/-- ZEXT.W (R130): low 32 bits zero-extended. -/
def execZextW (c : Fin 72) (gd : BitVec 4) (rd ra : BitVec 5) (s : State) : Host.Outcome State Fault Refusal :=
  s.act fun m => m.alu c gd (.zextW c gd rd ra) rd fun t => zextLow 32 (t.gr ra)

/-- PAR (R142): 1 for an odd number of ones. -/
def execPar (c : Fin 72) (gd : BitVec 4) (rd ra : BitVec 5) (s : State) : Host.Outcome State Fault Refusal :=
  s.act fun m => m.alu c gd (.par c gd rd ra) rd fun t => flagAt 0 (parity (t.gr ra))

/-- BREV (R142): the 64 bits reversed. -/
def execBrev (c : Fin 72) (gd : BitVec 4) (rd ra : BitVec 5) (s : State) : Host.Outcome State Fault Refusal :=
  s.act fun m => m.alu c gd (.brev c gd rd ra) rd fun t => bitRev (t.gr ra)

/-- BREV.B (R142): the bits of each byte reversed. -/
def execBrevB (c : Fin 72) (gd : BitVec 4) (rd ra : BitVec 5) (s : State) : Host.Outcome State Fault Refusal :=
  s.act fun m => m.alu c gd (.brevB c gd rd ra) rd fun t => byteBitRev (t.gr ra)

/-- BSWAP (R142): the bytes reversed. -/
def execBswap (c : Fin 72) (gd : BitVec 4) (rd ra : BitVec 5) (s : State) : Host.Outcome State Fault Refusal :=
  s.act fun m => m.alu c gd (.bswap c gd rd ra) rd fun t => byteSwap (t.gr ra)

/-- CLZ (R142): leading zeros. -/
def execClz (c : Fin 72) (gd : BitVec 4) (rd ra : BitVec 5) (s : State) : Host.Outcome State Fault Refusal :=
  s.act fun m => m.alu c gd (.clz c gd rd ra) rd fun t => w64 (countLead (t.gr ra))

/-- CTZ (R142): trailing zeros. -/
def execCtz (c : Fin 72) (gd : BitVec 4) (rd ra : BitVec 5) (s : State) : Host.Outcome State Fault Refusal :=
  s.act fun m => m.alu c gd (.ctz c gd rd ra) rd fun t => w64 (countTrail (t.gr ra))

/-- POPC (R142): number of ones. -/
def execPopc (c : Fin 72) (gd : BitVec 4) (rd ra : BitVec 5) (s : State) : Host.Outcome State Fault Refusal :=
  s.act fun m => m.alu c gd (.popc c gd rd ra) rd fun t => w64 (popCount (t.gr ra))

/-- ADDI (R131): sum with the sign-extended immediate. -/
def execAddi (c : Fin 72) (gd : BitVec 4) (rd ra : BitVec 5) (imm : BitVec 12) (s : State) : Host.Outcome State Fault Refusal :=
  s.act fun m => m.alu c gd (.addi c gd rd ra imm) rd fun t => t.gr ra + sx imm

/-- ANDI (R131): AND with the sign-extended immediate. -/
def execAndi (c : Fin 72) (gd : BitVec 4) (rd ra : BitVec 5) (imm : BitVec 12) (s : State) : Host.Outcome State Fault Refusal :=
  s.act fun m => m.alu c gd (.andi c gd rd ra imm) rd fun t => t.gr ra &&& sx imm

/-- ORI (R131): OR with the sign-extended immediate. -/
def execOri (c : Fin 72) (gd : BitVec 4) (rd ra : BitVec 5) (imm : BitVec 12) (s : State) : Host.Outcome State Fault Refusal :=
  s.act fun m => m.alu c gd (.ori c gd rd ra imm) rd fun t => t.gr ra ||| sx imm

/-- XORI (R131): XOR with the sign-extended immediate. -/
def execXori (c : Fin 72) (gd : BitVec 4) (rd ra : BitVec 5) (imm : BitVec 12) (s : State) : Host.Outcome State Fault Refusal :=
  s.act fun m => m.alu c gd (.xori c gd rd ra imm) rd fun t => t.gr ra ^^^ sx imm

/-- SHIFTI (R131): a shift or rotation by an immediate amount. -/
def execShifti (c : Fin 72) (gd : BitVec 4) (rd ra : BitVec 5) (kind : BitVec 2) (amount : BitVec 6) (s : State) :
    Host.Outcome State Fault Refusal :=
  s.act fun m => m.alu c gd (.shifti c gd rd ra kind amount) rd fun t => shiftBy kind (t.gr ra) amount.toNat

/-- MOVI.h (R132): a 16-bit immediate into quarter h. -/
def execMovi (c : Fin 72) (gd : BitVec 4) (h : BitVec 2) (rd : BitVec 5) (k : Bool) (imm : BitVec 16) (s : State) :
    Host.Outcome State Fault Refusal :=
  s.act fun m => m.alu c gd (.movi c gd h rd k imm) rd fun t => moveWide (t.gr rd) h k imm

/-- CRC.STEP (R143): fold the low bytes of rb into the CRC register ra. -/
def execCrcStep (c : Fin 72) (gd : BitVec 4) (rd ra rb : BitVec 5) (pp ss : BitVec 2) (s : State) :
    Host.Outcome State Fault Refusal :=
  s.act fun m => m.alu c gd (.crcStep c gd rd ra rb pp ss) rd fun t => crcStep pp ss (t.gr ra) (t.gr rb)

/-- CMP (R133): a condition on two registers enters pd by set, AND or OR. -/
def execCmp (c : Fin 72) (gd : BitVec 4) (pd : BitVec 3) (ra rb : BitVec 5) (comb : BitVec 2) (cond : BitVec 4) (s : State) :
    Host.Outcome State Fault Refusal :=
  s.act fun m => m.setsPred c gd (.cmp c gd pd ra rb comb cond) pd fun t =>
    combine comb (t.pr pd) (condHolds cond.toNat (t.gr ra) (t.gr rb))

/-- CMPI (R133): a condition on a register and the sign-extended immediate sets pd. -/
def execCmpi (c : Fin 72) (gd : BitVec 4) (pd cond : BitVec 3) (ra : BitVec 5) (imm : BitVec 11) (s : State) :
    Host.Outcome State Fault Refusal :=
  s.act fun m => m.setsPred c gd (.cmpi c gd pd cond ra imm) pd fun t => condHolds cond.toNat (t.gr ra) (sx imm)

/-- PRED (R134): predicate logic. -/
def execPred (c : Fin 72) (gd : BitVec 4) (pd pa pb : BitVec 3) (op : BitVec 2) (s : State) : Host.Outcome State Fault Refusal :=
  s.act fun m => m.setsPred c gd (.pred c gd pd pa pb op) pd fun t => predOp op (t.pr pa) (t.pr pb)

/-- MUL (R121, R140): the unsigned product goes into flight. -/
def execMul (c : Fin 72) (gd : BitVec 4) (ra rb : BitVec 5) (s : State) : Host.Outcome State Fault Refusal :=
  s.act fun m => m.insn c gd (.mul c gd ra rb) (regBody fun t => t.issueProduct (mulU (t.gr ra) (t.gr rb)))

/-- MULH (R121, R140): the signed product goes into flight. -/
def execMulh (c : Fin 72) (gd : BitVec 4) (ra rb : BitVec 5) (s : State) : Host.Outcome State Fault Refusal :=
  s.act fun m => m.insn c gd (.mulh c gd ra rb) (regBody fun t => t.issueProduct (mulS (t.gr ra) (t.gr rb)))

/-- DIV.STEP (R141): one restoring division step on ph and pl as they stand. -/
def execDivStep (c : Fin 72) (gd : BitVec 4) (ra : BitVec 5) (s : State) : Host.Outcome State Fault Refusal :=
  s.act fun m => m.insn c gd (.divStep c gd ra) (regBody fun t =>
    let r := divStep t.ph t.pl (t.gr ra)
    { t with ph := r.1, pl := r.2 })

end Sys2Proof.Machine
end

