-- ==== Sys2Proof/Machine/Dispatch.lean ====
section
/-! DEFINITION. One arm per command: a direct call of its meaning, or its rejection by name. -/

namespace Sys2Proof.Machine

/-- The effect of a command on everything but the queue. -/
def exec (i : Instr) (s : State) : Host.Outcome State Fault Refusal :=
  match i with
  | .add c gd rd ra rb => Sys2Proof.Machine.execAdd c gd rd ra rb s
  | .sub c gd rd ra rb => Sys2Proof.Machine.execSub c gd rd ra rb s
  | .and c gd rd ra rb => Sys2Proof.Machine.execAnd c gd rd ra rb s
  | .or c gd rd ra rb => Sys2Proof.Machine.execOr c gd rd ra rb s
  | .xor c gd rd ra rb => Sys2Proof.Machine.execXor c gd rd ra rb s
  | .andn c gd rd ra rb => Sys2Proof.Machine.execAndn c gd rd ra rb s
  | .shl c gd rd ra rb => Sys2Proof.Machine.execShl c gd rd ra rb s
  | .shr c gd rd ra rb => Sys2Proof.Machine.execShr c gd rd ra rb s
  | .sar c gd rd ra rb => Sys2Proof.Machine.execSar c gd rd ra rb s
  | .ror c gd rd ra rb => Sys2Proof.Machine.execRor c gd rd ra rb s
  | .min c gd rd ra rb => Sys2Proof.Machine.execMin c gd rd ra rb s
  | .max c gd rd ra rb => Sys2Proof.Machine.execMax c gd rd ra rb s
  | .minu c gd rd ra rb => Sys2Proof.Machine.execMinu c gd rd ra rb s
  | .maxu c gd rd ra rb => Sys2Proof.Machine.execMaxu c gd rd ra rb s
  | .sextB c gd rd ra => Sys2Proof.Machine.execSextB c gd rd ra s
  | .sextH c gd rd ra => Sys2Proof.Machine.execSextH c gd rd ra s
  | .sextW c gd rd ra => Sys2Proof.Machine.execSextW c gd rd ra s
  | .zextB c gd rd ra => Sys2Proof.Machine.execZextB c gd rd ra s
  | .zextH c gd rd ra => Sys2Proof.Machine.execZextH c gd rd ra s
  | .zextW c gd rd ra => Sys2Proof.Machine.execZextW c gd rd ra s
  | .addi c gd rd ra imm => Sys2Proof.Machine.execAddi c gd rd ra imm s
  | .andi c gd rd ra imm => Sys2Proof.Machine.execAndi c gd rd ra imm s
  | .ori c gd rd ra imm => Sys2Proof.Machine.execOri c gd rd ra imm s
  | .xori c gd rd ra imm => Sys2Proof.Machine.execXori c gd rd ra imm s
  | .shifti c gd rd ra kind amount => Sys2Proof.Machine.execShifti c gd rd ra kind amount s
  | .movi c gd h rd k imm => Sys2Proof.Machine.execMovi c gd h rd k imm s
  | .cmp c gd pd ra rb comb cond => Sys2Proof.Machine.execCmp c gd pd ra rb comb cond s
  | .cmpi c gd pd cond ra imm => Sys2Proof.Machine.execCmpi c gd pd cond ra imm s
  | .pred c gd pd pa pb op => Sys2Proof.Machine.execPred c gd pd pa pb op s
  | .ldB c gd rd ra imm => Sys2Proof.Machine.execLdB c gd rd ra imm s
  | .ldH c gd rd ra imm => Sys2Proof.Machine.execLdH c gd rd ra imm s
  | .ldW c gd rd ra imm => Sys2Proof.Machine.execLdW c gd rd ra imm s
  | .ldD c gd rd ra imm => Sys2Proof.Machine.execLdD c gd rd ra imm s
  | .ldBs c gd rd ra imm => Sys2Proof.Machine.execLdBs c gd rd ra imm s
  | .ldHs c gd rd ra imm => Sys2Proof.Machine.execLdHs c gd rd ra imm s
  | .ldWs c gd rd ra imm => Sys2Proof.Machine.execLdWs c gd rd ra imm s
  | .stB c gd rd ra imm => Sys2Proof.Machine.execStB c gd rd ra imm s
  | .stH c gd rd ra imm => Sys2Proof.Machine.execStH c gd rd ra imm s
  | .stW c gd rd ra imm => Sys2Proof.Machine.execStW c gd rd ra imm s
  | .stD c gd rd ra imm => Sys2Proof.Machine.execStD c gd rd ra imm s
  | .br c gd off => Sys2Proof.Machine.execBr c gd off s
  | .bl c gd off => Sys2Proof.Machine.execBl c gd off s
  | .jr c gd ra => Sys2Proof.Machine.execJr c gd ra s
  | .jlr c gd rd ra => Sys2Proof.Machine.execJlr c gd rd ra s
  | .resume c gd => Sys2Proof.Machine.execResume c gd s
  | .mul c gd ra rb => Sys2Proof.Machine.execMul c gd ra rb s
  | .mulh c gd ra rb => Sys2Proof.Machine.execMulh c gd ra rb s
  | .divStep c gd ra => Sys2Proof.Machine.execDivStep c gd ra s
  | .par c gd rd ra => Sys2Proof.Machine.execPar c gd rd ra s
  | .brev c gd rd ra => Sys2Proof.Machine.execBrev c gd rd ra s
  | .brevB c gd rd ra => Sys2Proof.Machine.execBrevB c gd rd ra s
  | .bswap c gd rd ra => Sys2Proof.Machine.execBswap c gd rd ra s
  | .clz c gd rd ra => Sys2Proof.Machine.execClz c gd rd ra s
  | .ctz c gd rd ra => Sys2Proof.Machine.execCtz c gd rd ra s
  | .popc c gd rd ra => Sys2Proof.Machine.execPopc c gd rd ra s
  | .crcStep c gd rd ra rb pp ss => Sys2Proof.Machine.execCrcStep c gd rd ra rb pp ss s
  | .movBlk c gd esz => Sys2Proof.Machine.execMovBlk c gd esz s
  | .fillBlk c gd esz => Sys2Proof.Machine.execFillBlk c gd esz s
  | .cmpBlk c gd pd esz => Sys2Proof.Machine.execCmpBlk c gd pd esz s
  | .scanBlk c gd pd esz ne => Sys2Proof.Machine.execScanBlk c gd pd esz ne s
  | .crcBlk c gd poly => Sys2Proof.Machine.execCrcBlk c gd poly s
  | .mfs c gd rd sr => Sys2Proof.Machine.execMfs c gd rd sr s
  | .mts c gd sr ra => Sys2Proof.Machine.execMts c gd sr ra s
  | .waitwork c gd rd => Sys2Proof.Machine.execWaitwork c gd rd s
  | .yield c gd => Sys2Proof.Machine.execYield c gd s
  | .post c gd ra => Sys2Proof.Machine.execPost c gd ra s
  | .sleep c gd ra => Sys2Proof.Machine.execSleep c gd ra s
  | .fence c gd => Sys2Proof.Machine.execFence c gd s
  | .cacheClnR c gd ra rb => Sys2Proof.Machine.execCacheClnR c gd ra rb s
  | .cacheInvR c gd ra rb => Sys2Proof.Machine.execCacheInvR c gd ra rb s
  | .jobSubmit c gd rd ra rb => Sys2Proof.Machine.execJobSubmit c gd rd ra rb s
  | .jobWait c gd rd ra => Sys2Proof.Machine.execJobWait c gd rd ra s
  | .jobTest c gd rd ra pd => Sys2Proof.Machine.execJobTest c gd rd ra pd s
  | .dgsOpen c gd rd ra => Sys2Proof.Machine.execDgsOpen c gd rd ra s
  | .dgsUpdate c gd rd ra rb => Sys2Proof.Machine.execDgsUpdate c gd rd ra rb s
  | .dgsFinish c gd rd ra rb => Sys2Proof.Machine.execDgsFinish c gd rd ra rb s
  | .dgsRelease c gd ra => Sys2Proof.Machine.execDgsRelease c gd ra s
  | .mregExtend c gd n ra => Sys2Proof.Machine.execMregExtend c gd n ra s
  | .cmpCt c gd pd size ra rb => Sys2Proof.Machine.execCmpCt c gd pd size ra rb s
  | .ledgerAudit c gd rd pd => Sys2Proof.Machine.execLedgerAudit c gd rd pd s
  | .illegalInstruction c word => Sys2Proof.Machine.execIllegalInstruction c word s
  | .insnmaxExceeded c => Sys2Proof.Machine.execInsnmaxExceeded c s
  | .grnAlloc w cls => Sys2Proof.Machine.execGrnAlloc w cls s
  | .grnTryalloc w cls => Sys2Proof.Machine.execGrnTryalloc w cls s
  | .heldAllocationGrant n => Sys2Proof.Machine.execHeldAllocationGrant n s
  | .grnFree w v => Sys2Proof.Machine.execGrnFree w v s
  | .grnGive w v => Sys2Proof.Machine.execGrnGive w v s
  | .bufferHandoffAccept h => Sys2Proof.Machine.execBufferHandoffAccept h s
  | .grnRecount w v => Sys2Proof.Machine.execGrnRecount w v s
  | .quarantineReserve q ctx => Sys2Proof.Machine.execQuarantineReserve q ctx s
  | .quarantineMove q ctx => Sys2Proof.Machine.execQuarantineMove q ctx s
  | .schTcbAlloc w => Sys2Proof.Machine.execSchTcbAlloc w s
  | .schTcbAllocSlice w sl => Sys2Proof.Machine.execSchTcbAllocSlice w sl s
  | .start w k => Sys2Proof.Machine.execStart w k s
  | .stop w k => Sys2Proof.Machine.execStop w k s
  | .restart w k => Sys2Proof.Machine.execRestart w k s
  | .delete w k => Sys2Proof.Machine.execDelete w k s
  | .tcbPrioWrite w k v => Sys2Proof.Machine.execTcbPrioWrite w k v s
  | .tcbFieldWrite w k r v => Sys2Proof.Machine.execTcbFieldWrite w k r v s
  | .coreAskWork c => Sys2Proof.Machine.execCoreAskWork c s
  | .heldRaiseAccept n => Sys2Proof.Machine.execHeldRaiseAccept n s
  | .schEvtWrite w e v => Sys2Proof.Machine.execSchEvtWrite w e v s
  | .schTmrWrite w k v => Sys2Proof.Machine.execSchTmrWrite w k v s
  | .timerExpire k => Sys2Proof.Machine.execTimerExpire k s
  | .sleepWake k => Sys2Proof.Machine.execSleepWake k s
  | .obsWindowWrite w isEnd v => Sys2Proof.Machine.execObsWindowWrite w isEnd v s
  | .obsWindowClose => Sys2Proof.Machine.execObsWindowClose s
  | .mbxPost w m v => Sys2Proof.Machine.execMbxPost w m v s
  | .mbxTake w m => Sys2Proof.Machine.execMbxTake w m s
  | .mbxDbset w m v => Sys2Proof.Machine.execMbxDbset w m v s
  | .mbxDbread w m => Sys2Proof.Machine.execMbxDbread w m s
  | .mbxDbmaskWrite w m v => Sys2Proof.Machine.execMbxDbmaskWrite w m v s
  | .mbxBindWrite w m v => Sys2Proof.Machine.execMbxBindWrite w m v s
  | .mbxTimeout m => Sys2Proof.Machine.execMbxTimeout m s
  | .lockRead w n => Sys2Proof.Machine.execLockRead w n s
  | .lockWrite w n v => Sys2Proof.Machine.execLockWrite w n v s
  | .mbxLockcfgWrite w n v => Sys2Proof.Machine.execMbxLockcfgWrite w n v s
  | .lockForce w n v => Sys2Proof.Machine.execLockForce w n v s
  | .resonatorLoss => Sys2Proof.Machine.execResonatorLoss s
  | .pwrVcoreReqWrite w v => Sys2Proof.Machine.execPwrVcoreReqWrite w v s
  | .vcoreSettled => Sys2Proof.Machine.execVcoreSettled s
  | .thermalBandChange t => Sys2Proof.Machine.execThermalBandChange t s
  | .winnowBandChange t => Sys2Proof.Machine.execWinnowBandChange t s
  | .overtempHold t => Sys2Proof.Machine.execOvertempHold t s
  | .overtempReset t => Sys2Proof.Machine.execOvertempReset t s
  | .vinWarning mv => Sys2Proof.Machine.execVinWarning mv s
  | .vinInhibit mv => Sys2Proof.Machine.execVinInhibit mv s
  | .vinRecover mv => Sys2Proof.Machine.execVinRecover mv s
  | .holdWindowExpire => Sys2Proof.Machine.execHoldWindowExpire s
  | .vinReset mv => Sys2Proof.Machine.execVinReset mv s
  | .railFault n => Sys2Proof.Machine.execRailFault n s
  | .railReset n => Sys2Proof.Machine.execRailReset n s
  | .moduleReset mv bad => Sys2Proof.Machine.execModuleReset mv bad s
  | .nreset low => Sys2Proof.Machine.execNreset low s
  | .alarmResume w => Sys2Proof.Machine.execAlarmResume w s
  | .pwrAlarmEvtClear w v => Sys2Proof.Machine.execPwrAlarmEvtClear w v s
  | .heldCmdPlace => Sys2Proof.Machine.execHeldCmdPlace s
  | .commandAccept q => Sys2Proof.Machine.execCommandAccept q s
  | .dataInComplete tag => Sys2Proof.Machine.execDataInComplete tag s
  | .noticePost tag => Sys2Proof.Machine.execNoticePost tag s
  | .identify tag => Sys2Proof.Machine.execIdentify tag s
  | .read tag fault => Sys2Proof.Machine.execRead tag fault s
  | .write tag fault => Sys2Proof.Machine.execWrite tag fault s
  | .flush tag => Sys2Proof.Machine.execFlush tag s
  | .trim tag fault => Sys2Proof.Machine.execTrim tag fault s
  | .verifyFixity tag fault => Sys2Proof.Machine.execVerifyFixity tag fault s
  | .scan tag => Sys2Proof.Machine.execScan tag s
  | .loadProgram tag => Sys2Proof.Machine.execLoadProgram tag s
  | .unloadProgram tag => Sys2Proof.Machine.execUnloadProgram tag s
  | .run tag => Sys2Proof.Machine.execRun tag s
  | .setPower tag => Sys2Proof.Machine.execSetPower tag s
  | .getLog tag => Sys2Proof.Machine.execGetLog tag s
  | .keyLoad tag => Sys2Proof.Machine.execKeyLoad tag s
  | .firmwareStage tag bad => Sys2Proof.Machine.execFirmwareStage tag bad s
  | .firmwareActivate tag => Sys2Proof.Machine.execFirmwareActivate tag s
  | .abort tag => Sys2Proof.Machine.execAbort tag s
  | .powerQuietWindowClose => Sys2Proof.Machine.execPowerQuietWindowClose s
  | .powerEntryAbandon => Sys2Proof.Machine.execPowerEntryAbandon s
  | .powerStatePrepared => Sys2Proof.Machine.execPowerStatePrepared s
  | .resetQp w q => Sys2Proof.Machine.execResetQp w q s
  | .resetAll w => Sys2Proof.Machine.execResetAll w s
  | .queueResetEnd => Sys2Proof.Machine.execQueueResetEnd s
  | .hqReady w => Sys2Proof.Machine.execHqReady w s
  | .qpCfgWrite w q v => Sys2Proof.Machine.execQpCfgWrite w q v s
  | .flitReceive f => Sys2Proof.Machine.execFlitReceive f s
  | .flitTransmit cls => Sys2Proof.Machine.execFlitTransmit cls s
  | .nakWindowExpire => Sys2Proof.Machine.execNakWindowExpire s
  | .replayTimeout => Sys2Proof.Machine.execReplayTimeout s
  | .skipSend lane => Sys2Proof.Machine.execSkipSend lane s
  | .ts1Detect lane => Sys2Proof.Machine.execTs1Detect lane s
  | .pollTimeout lanes => Sys2Proof.Machine.execPollTimeout lanes s
  | .configComplete peerGood domPos grants peerNew peerExp => Sys2Proof.Machine.execConfigComplete peerGood domPos grants peerNew peerExp s
  | .laneBlockLockFail lane => Sys2Proof.Machine.execLaneBlockLockFail lane s
  | .laneErrorWindow lane n => Sys2Proof.Machine.execLaneErrorWindow lane n s
  | .linkBlockLockLoss lane => Sys2Proof.Machine.execLinkBlockLockLoss lane s
  | .retrain w => Sys2Proof.Machine.execRetrain w s
  | .widen w => Sys2Proof.Machine.execWiden w s
  | .linkActiveTimeout => Sys2Proof.Machine.execLinkActiveTimeout s
  | .pmEnter => Sys2Proof.Machine.execPmEnter s
  | .pmRefuseRetry => Sys2Proof.Machine.execPmRefuseRetry s
  | .idleEnterReceive lanes => Sys2Proof.Machine.execIdleEnterReceive lanes s
  | .lowpowerEntryTimeout => Sys2Proof.Machine.execLowpowerEntryTimeout s
  | .electricalIdleExit byPeer => Sys2Proof.Machine.execElectricalIdleExit byPeer s
  | .holdWindowTimeout => Sys2Proof.Machine.execHoldWindowTimeout s
  | .create w sl desc => Sys2Proof.Machine.execCreate w sl desc s
  | .createComplete => Sys2Proof.Machine.execCreateComplete s
  | .destroy w sl => Sys2Proof.Machine.execDestroy w sl s
  | .destroyComplete => Sys2Proof.Machine.execDestroyComplete s
  | .slcBindWrite w k v => Sys2Proof.Machine.execSlcBindWrite w k v s
  | .landingComplete tag grain => Sys2Proof.Machine.execLandingComplete tag grain s
  | .landingStripeTimeout set => Sys2Proof.Machine.execLandingStripeTimeout set s
  | .mapUpdate tag grain => Sys2Proof.Machine.execMapUpdate tag grain s
  | .foldCommit lsn => Sys2Proof.Machine.execFoldCommit lsn s
  | .reclaim set => Sys2Proof.Machine.execReclaim set s
  | .journalPageTimeout => Sys2Proof.Machine.execJournalPageTimeout s
  | .journalPageDurable => Sys2Proof.Machine.execJournalPageDurable s
  | .checkpoint seg key => Sys2Proof.Machine.execCheckpoint seg key s
  | .mapPageLoad seg key => Sys2Proof.Machine.execMapPageLoad seg key s
  | .mount facts rates => Sys2Proof.Machine.execMount facts rates s
  | .unsealNs w sl ns => Sys2Proof.Machine.execUnsealNs w sl ns s
  | .unsealModule w => Sys2Proof.Machine.execUnsealModule w s
  | .sweep w => Sys2Proof.Machine.execSweep w s
  | .mapTimeWrite w v => Sys2Proof.Machine.execMapTimeWrite w v s
  | .mapTimeTimeout => Sys2Proof.Machine.execMapTimeTimeout s
  | .retentionSweep set bits deep => Sys2Proof.Machine.execRetentionSweep set bits deep s
  | .nandOpIssue d => Sys2Proof.Machine.execNandOpIssue d s
  | .nandStatusRead d fail decode => Sys2Proof.Machine.execNandStatusRead d fail decode s
  | .nandOpTimeout d => Sys2Proof.Machine.execNandOpTimeout d s
  | .resetLunTimeout d => Sys2Proof.Machine.execResetLunTimeout d s
  | .eraseSuspend d busy => Sys2Proof.Machine.execEraseSuspend d busy s
  | .eraseResume d => Sys2Proof.Machine.execEraseResume d s
  | .vccqOvercurrent q ma => Sys2Proof.Machine.execVccqOvercurrent q ma s
  | .vccqLow q ma => Sys2Proof.Machine.execVccqLow q ma s
  | .vccqLowTimeout q => Sys2Proof.Machine.execVccqLowTimeout q s
  | .fchPtokPoolWrite w v => Sys2Proof.Machine.execFchPtokPoolWrite w v s
  | .compress e ctx fault => Sys2Proof.Machine.execCompress e ctx fault s
  | .decompress e ctx => Sys2Proof.Machine.execDecompress e ctx s
  | .validate e ctx => Sys2Proof.Machine.execValidate e ctx s
  | .xtsEncrypt q ctx fault => Sys2Proof.Machine.execXtsEncrypt q ctx fault s
  | .xtsDecrypt q ctx fault => Sys2Proof.Machine.execXtsDecrypt q ctx fault s
  | .gcmEncrypt q ctx fault => Sys2Proof.Machine.execGcmEncrypt q ctx fault s
  | .gcmDecrypt q ctx fault => Sys2Proof.Machine.execGcmDecrypt q ctx fault s
  | .search ctx => Sys2Proof.Machine.execSearch ctx s
  | .insert ctx => Sys2Proof.Machine.execInsert ctx s
  | .winnowDelete ctx => Sys2Proof.Machine.execWinnowDelete ctx s
  | .winnowClear ctx => Sys2Proof.Machine.execWinnowClear ctx s
  | .engineJobComplete port ctx => Sys2Proof.Machine.execEngineJobComplete port ctx s
  | .grtOfflineWrite w e v => Sys2Proof.Machine.execGrtOfflineWrite w e v s
  | .cphOfflineWrite w q v => Sys2Proof.Machine.execCphOfflineWrite w q v s
  | .keyErase w slot => Sys2Proof.Machine.execKeyErase w slot s
  | .keyReload w slot => Sys2Proof.Machine.execKeyReload w slot s
  | .spikeletStart tag k fault => Sys2Proof.Machine.execSpikeletStart tag k fault s
  | .spikeletEnd tag k fault => Sys2Proof.Machine.execSpikeletEnd tag k fault s
  | .recordWrite tag => Sys2Proof.Machine.execRecordWrite tag s
  | .prefetch sheaf k => Sys2Proof.Machine.execPrefetch sheaf k s
  | .evictionWriteback cache => Sys2Proof.Machine.execEvictionWriteback cache s
  | .scrubGo w v => Sys2Proof.Machine.execScrubGo w v s
  | .scrubStop w v => Sys2Proof.Machine.execScrubStop w v s
  | .scrubRead => Sys2Proof.Machine.execScrubRead s
  | .eccCtlClear w v => Sys2Proof.Machine.execEccCtlClear w v s
  | .drcInit w v => Sys2Proof.Machine.execDrcInit w v s
  | .dramFillRegion q => Sys2Proof.Machine.execDramFillRegion q s
  | .retireRank w v => Sys2Proof.Machine.execRetireRank w v s
  | .migrationRegion => Sys2Proof.Machine.execMigrationRegion s
  | .dramRefresh q => Sys2Proof.Machine.execDramRefresh q s
  | .mr4Read q v => Sys2Proof.Machine.execMr4Read q v s
  | .fwaProgram w v => Sys2Proof.Machine.execFwaProgram w v s
  | .fwaClear w v => Sys2Proof.Machine.execFwaClear w v s
  | .fwaErase w v => Sys2Proof.Machine.execFwaErase w v s
  | .fwaSuspend w v => Sys2Proof.Machine.execFwaSuspend w v s
  | .fwaResume w v => Sys2Proof.Machine.execFwaResume w v s
  | .fwaOpComplete ok => Sys2Proof.Machine.execFwaOpComplete ok s
  | .rdpRaise w => Sys2Proof.Machine.execRdpRaise w s
  | .rdpSeal w => Sys2Proof.Machine.execRdpSeal w s
  | .rdpLower w => Sys2Proof.Machine.execRdpLower w s
  | .confirm w => Sys2Proof.Machine.execConfirm w s
  | .activationWindowExpire => Sys2Proof.Machine.execActivationWindowExpire s
  | .fwaLimp w => Sys2Proof.Machine.execFwaLimp w s
  | .frzNAssert => Sys2Proof.Machine.execFrzNAssert s
  | .freeze w => Sys2Proof.Machine.execFreeze w s
  | .freezeComplete => Sys2Proof.Machine.execFreezeComplete s
  | .thaw pin => Sys2Proof.Machine.execThaw pin s
  | .halt w v => Sys2Proof.Machine.execHalt w v s
  | .debugResume w v => Sys2Proof.Machine.execDebugResume w v s
  | .debugLower w => Sys2Proof.Machine.execDebugLower w s
  | .dbgaccUpdate v => Sys2Proof.Machine.execDbgaccUpdate v s
  | .extest => Sys2Proof.Machine.execExtest s
  | .samplePreload v => Sys2Proof.Machine.execSamplePreload v s
  | .idcode => Sys2Proof.Machine.execIdcode s
  | .clamp => Sys2Proof.Machine.execClamp s
  | .highz => Sys2Proof.Machine.execHighz s
  | .dbgacc => Sys2Proof.Machine.execDbgacc s
  | .bypass => Sys2Proof.Machine.execBypass s
  | .i2cRead a => Sys2Proof.Machine.execI2cRead a s
  | .registerWrite w a v => Sys2Proof.Machine.execRegisterWrite w a v s
  | .lanesLocked lanes => Sys2Proof.Machine.execLanesLocked lanes s
  | .vccqOutRecover q ma => Sys2Proof.Machine.execVccqOutRecover q ma s
  | .overtempRelease t => Sys2Proof.Machine.execOvertempRelease t s
  | .dgsFinishDone k => Sys2Proof.Machine.execDgsFinishDone k s
  | .dramTrainingDone q cached ok => Sys2Proof.Machine.execDramTrainingDone q cached ok s
  | .testLogicReset => Sys2Proof.Machine.execTestLogicReset s
  | .freezeMonitorReady n j => Sys2Proof.Machine.execFreezeMonitorReady n j s

end Sys2Proof.Machine
end

