-- ==== Sys2Proof/Machine/Step.lean ====
section
/-! DEFINITION. One step of the block: the command at the front of the queue, or a tick of the time base. -/

namespace Sys2Proof.Machine

/-- The block takes the command at the front of its queue; with none waiting, the time base counts one tick (R32). -/
def step (s : State) : Host.Outcome State Fault Refusal :=
  match s.pending with
  | [] => .next { s with m := s.m.tick }
  | c :: rest => exec c { s with pending := rest }

/-- Put the command that a word of the table spells at the front of the queue. The table gives no row any bits. -/
def State.withFetchWord (s : State) (nbits w : Nat) : State :=
  match decodeTableWord nbits w with
  | some c => { s with pending := c :: s.pending }
  | none => s

end Sys2Proof.Machine
end

