-- ==== Sys2Proof/Safety.lean ====
section
/-! DEFINITION. What a state of the block must satisfy for a run to be called safe, and the words in which the statements speak of an
instruction on a core and of a register access, in the terms that the statements use. -/

namespace Sys2Proof

/-- The core and the guard of an instruction of the Aedjor set; none for every other command, and for the exceptions of undefined words
and of an exhausted budget. -/
def Instr.onCore : Instr → Option (Fin 72 × BitVec 4)
  | .add c gd _ _ _ => some (c, gd)
  | .sub c gd _ _ _ => some (c, gd)
  | .and c gd _ _ _ => some (c, gd)
  | .or c gd _ _ _ => some (c, gd)
  | .xor c gd _ _ _ => some (c, gd)
  | .andn c gd _ _ _ => some (c, gd)
  | .shl c gd _ _ _ => some (c, gd)
  | .shr c gd _ _ _ => some (c, gd)
  | .sar c gd _ _ _ => some (c, gd)
  | .ror c gd _ _ _ => some (c, gd)
  | .min c gd _ _ _ => some (c, gd)
  | .max c gd _ _ _ => some (c, gd)
  | .minu c gd _ _ _ => some (c, gd)
  | .maxu c gd _ _ _ => some (c, gd)
  | .sextB c gd _ _ => some (c, gd)
  | .sextH c gd _ _ => some (c, gd)
  | .sextW c gd _ _ => some (c, gd)
  | .zextB c gd _ _ => some (c, gd)
  | .zextH c gd _ _ => some (c, gd)
  | .zextW c gd _ _ => some (c, gd)
  | .addi c gd _ _ _ => some (c, gd)
  | .andi c gd _ _ _ => some (c, gd)
  | .ori c gd _ _ _ => some (c, gd)
  | .xori c gd _ _ _ => some (c, gd)
  | .shifti c gd _ _ _ _ => some (c, gd)
  | .movi c gd _ _ _ _ => some (c, gd)
  | .cmp c gd _ _ _ _ _ => some (c, gd)
  | .cmpi c gd _ _ _ _ => some (c, gd)
  | .pred c gd _ _ _ _ => some (c, gd)
  | .ldB c gd _ _ _ => some (c, gd)
  | .ldH c gd _ _ _ => some (c, gd)
  | .ldW c gd _ _ _ => some (c, gd)
  | .ldD c gd _ _ _ => some (c, gd)
  | .ldBs c gd _ _ _ => some (c, gd)
  | .ldHs c gd _ _ _ => some (c, gd)
  | .ldWs c gd _ _ _ => some (c, gd)
  | .stB c gd _ _ _ => some (c, gd)
  | .stH c gd _ _ _ => some (c, gd)
  | .stW c gd _ _ _ => some (c, gd)
  | .stD c gd _ _ _ => some (c, gd)
  | .br c gd _ => some (c, gd)
  | .bl c gd _ => some (c, gd)
  | .jr c gd _ => some (c, gd)
  | .jlr c gd _ _ => some (c, gd)
  | .resume c gd => some (c, gd)
  | .mul c gd _ _ => some (c, gd)
  | .mulh c gd _ _ => some (c, gd)
  | .divStep c gd _ => some (c, gd)
  | .par c gd _ _ => some (c, gd)
  | .brev c gd _ _ => some (c, gd)
  | .brevB c gd _ _ => some (c, gd)
  | .bswap c gd _ _ => some (c, gd)
  | .clz c gd _ _ => some (c, gd)
  | .ctz c gd _ _ => some (c, gd)
  | .popc c gd _ _ => some (c, gd)
  | .crcStep c gd _ _ _ _ _ => some (c, gd)
  | .movBlk c gd _ => some (c, gd)
  | .fillBlk c gd _ => some (c, gd)
  | .cmpBlk c gd _ _ => some (c, gd)
  | .scanBlk c gd _ _ _ => some (c, gd)
  | .crcBlk c gd _ => some (c, gd)
  | .mfs c gd _ _ => some (c, gd)
  | .mts c gd _ _ => some (c, gd)
  | .waitwork c gd _ => some (c, gd)
  | .yield c gd => some (c, gd)
  | .post c gd _ => some (c, gd)
  | .sleep c gd _ => some (c, gd)
  | .fence c gd => some (c, gd)
  | .cacheClnR c gd _ _ => some (c, gd)
  | .cacheInvR c gd _ _ => some (c, gd)
  | .jobSubmit c gd _ _ _ => some (c, gd)
  | .jobWait c gd _ _ => some (c, gd)
  | .jobTest c gd _ _ _ => some (c, gd)
  | .dgsOpen c gd _ _ => some (c, gd)
  | .dgsUpdate c gd _ _ _ => some (c, gd)
  | .dgsFinish c gd _ _ _ => some (c, gd)
  | .dgsRelease c gd _ => some (c, gd)
  | .mregExtend c gd _ _ => some (c, gd)
  | .cmpCt c gd _ _ _ _ => some (c, gd)
  | .ledgerAudit c gd _ _ => some (c, gd)
  | _ => none

/-- The commands that store nothing: registers of the scheduler, the mailboxes, the locks, the supply and the engines, timers and windows,
the link's training and its power states, suspended erases, and the test port. -/
def Instr.quiet : Instr → Bool
  | .bufferHandoffAccept .. => true
  | .schTcbAlloc .. => true
  | .schTcbAllocSlice .. => true
  | .tcbPrioWrite .. => true
  | .tcbFieldWrite .. => true
  | .schEvtWrite .. => true
  | .schTmrWrite .. => true
  | .timerExpire .. => true
  | .sleepWake .. => true
  | .obsWindowWrite .. => true
  | .obsWindowClose => true
  | .mbxPost .. => true
  | .mbxTake .. => true
  | .mbxDbset .. => true
  | .mbxDbread .. => true
  | .mbxDbmaskWrite .. => true
  | .mbxBindWrite .. => true
  | .mbxTimeout .. => true
  | .lockRead .. => true
  | .lockWrite .. => true
  | .mbxLockcfgWrite .. => true
  | .lockForce .. => true
  | .resonatorLoss => true
  | .pwrVcoreReqWrite .. => true
  | .vcoreSettled => true
  | .thermalBandChange .. => true
  | .winnowBandChange .. => true
  | .railFault .. => true
  | .alarmResume .. => true
  | .pwrAlarmEvtClear .. => true
  | .noticePost .. => true
  | .powerQuietWindowClose => true
  | .queueResetEnd => true
  | .nakWindowExpire => true
  | .replayTimeout => true
  | .skipSend .. => true
  | .ts1Detect .. => true
  | .pollTimeout .. => true
  | .laneBlockLockFail .. => true
  | .laneErrorWindow .. => true
  | .linkBlockLockLoss .. => true
  | .retrain .. => true
  | .widen .. => true
  | .linkActiveTimeout => true
  | .pmEnter => true
  | .pmRefuseRetry => true
  | .idleEnterReceive .. => true
  | .lowpowerEntryTimeout => true
  | .electricalIdleExit .. => true
  | .holdWindowTimeout => true
  | .slcBindWrite .. => true
  | .landingStripeTimeout .. => true
  | .journalPageTimeout => true
  | .checkpoint .. => true
  | .eraseSuspend .. => true
  | .eraseResume .. => true
  | .vccqOvercurrent .. => true
  | .vccqLow .. => true
  | .fchPtokPoolWrite .. => true
  | .grtOfflineWrite .. => true
  | .cphOfflineWrite .. => true
  | .scrubGo .. => true
  | .scrubStop .. => true
  | .eccCtlClear .. => true
  | .dramRefresh .. => true
  | .mr4Read .. => true
  | .frzNAssert => true
  | .extest => true
  | .samplePreload .. => true
  | .idcode => true
  | .clamp => true
  | .highz => true
  | .dbgacc => true
  | .bypass => true
  | .lanesLocked .. => true
  | .vccqOutRecover .. => true
  | .testLogicReset => true
  | .freezeMonitorReady .. => true
  | _ => false

end Sys2Proof

namespace Sys2Proof.Machine

/-! ## Safe states -/

/-- The books balance: FREE, HELD and TRANSIT of ledger k sum to its TOTAL (R71). -/
def Ledger.balanced (l : Ledger) : Bool := l.free + l.held + l.transit == l.total

/-- The stored complements of a ledger agree with it (R71, R79). -/
def Ledger.sealed (l : Ledger) : Bool := l.cpl == ~~~(ledgerWord l.free l.held) && l.cplT == ~~~(BitVec.ofNat 32 l.transit)

/-- Every ledger balances and agrees with its complements. -/
def Mach.booksKept (m : Mach) : Bool := (List.range 14).all fun k => (m.ledger k).balanced && (m.ledger k).sealed

/-- While IDCODE is selected the test access port holds the identity of the HK96 (R6, R614). -/
def Tap.identified (t : Tap) : Bool := t.ir != .idcode || t.dr == 0x1B96A0F3

/-- The stored bytes stand in their canonical form. -/
def State.memoryCanonical (s : State) : Bool := Memory.wf s.m.mem

/-- A safe state: canonical memory, books that balance, and an identified test port. -/
def State.safe (s : State) : Bool := s.memoryCanonical && s.m.booksKept && s.tap.identified

/-! ## An instruction on a core -/

/-- The state whose queue and test port are those of s, and whose machine is m. -/
def State.on (s : State) (m : Mach) : State := { s with m := m }

/-- Core c has thread k, which can execute now; the fetch at its pc succeeds and leaves the machine m1; no breakpoint meets it (R109). -/
def Mach.fetched (m : Mach) (c : Fin 72) (k : Nat) (m1 : Mach) : Prop :=
  m.runner c = some k ∧ m.fetch c k = (m1, .ok ()) ∧ m1.breakpoint k = none

/-- As `fetched`, and the instruction's guard holds (R94, R95). -/
def Mach.begins (m : Mach) (c : Fin 72) (gd : BitVec 4) (k : Nat) (m1 : Mach) : Prop :=
  m.fetched c k m1 ∧ (m1.thr k).guard gd = true

/-- Thread k completes an instruction whose effect on its own registers is f: it retires and goes on to the next (R120). -/
def Mach.completes (m : Mach) (k : Nat) (f : Thr → Thr) : Mach := m.modThr k fun t => (f t).retire.advance

/-- Thread k completes a jump: the instruction retires and control goes to pc. -/
def Mach.jumps (m : Mach) (k : Nat) (f : Thr → Thr) (pc : PcWord) : Mach := m.modThr k fun t => { (f t).retire with pc := pc }

/-- Thread k completes an instruction that writes v to rd. -/
def Mach.gives (m : Mach) (k : Nat) (rd : BitVec 5) (v : W64) : Mach := m.completes k fun t => t.gw rd v

/-- What a memory access may not change of a thread: everything but the fields that a readiness changes (R184). -/
def Thr.sameBody (t u : Thr) : Prop :=
  { t with state := u.state, curPrio := u.curPrio, waitKind := u.waitKind, wake := u.wake } = u

/-! ## The granary -/

/-- m2 is m after a buffer k has been given to an owner in class c and charged: its attributes, its zeroed bytes, the counts, and what
stands as before (R57 to R63). The buffer was a free one, where the table lists its indexes rising. -/
def Mach.granted (m m2 : Mach) (k c : Nat) (owner : BitVec 16) (charge : Option Nat) : Prop :=
  m2.buf k = { state := .owned, owner := owner, cls := c, charged := charge, cplOk := true } ∧ (∀ j, j ≠ k → m2.buf j = m.buf j) ∧
  (∀ i, i < 4096 → m2.byte (bufAddr k + i) = 0) ∧ (∀ a, a < bufAddr k ∨ bufAddr k + 4096 ≤ a → m2.byte a = m.byte a) ∧
  (m2.cls c).held = (m.cls c).held + 1 ∧ (m2.ledger 0).free = (m.ledger 0).free - 1 ∧ (m2.ledger 0).held = (m.ledger 0).held + 1 ∧
  (∀ s, charge = some s → (m2.slq s).held = (m.slq s).held + 1) ∧
  ((m.grn.bufs.map (·.1)).Pairwise (· < ·) → k < m.bufTotal ∧ (m.buf k).state = .free)

/-! ## Events and host commands -/

/-- A raise of event e is counted: no thread that waits in WAITWORK is bound to it, and its count is below its end (R193). -/
def Mach.hears (m : Mach) (e : Nat) : Prop := ((m.evt e).bound && m.inWaitwork (m.evt e).tcb) = false ∧ (m.evt e).pend < 65535

/-- m2 is a state after m in which event e has been counted once more. -/
def Mach.counted (m m2 : Mach) (e : Nat) : Prop := m.hears e → (m2.evt e).pend = (m.evt e).pend + 1

/-- The command under a tag is c, of opcode opc, the only one outstanding, and nothing holds it back: no power-state entry, no
activation, no outcome decided yet, no stored value that disagrees with its complement (R261, R267, R597). -/
def Mach.sole (m : Mach) (tag : Nat) (c : Cmd) (opc : Nat) : Prop :=
  m.pwr.mism = [] ∧ m.hq.cmds = [(tag, c)] ∧ m.hq.aborts = [] ∧ m.hq.entry = none ∧ m.fwa.act = none ∧ c.ent.opc = opc ∧
  (c.phase = .waiting ∨ c.phase = .dataReady ∨ c.phase = .running) ∧ m.unplaced c = false ∧ c.verdict = none ∧ c.stopReq = none ∧
  c.lostDwr = false

/-- m2 is m after the only command, c under a tag, has ended: none is outstanding, and its final completion has been posted with a status
and a result (R259, R260). -/
def Mach.ended (m m2 : Mach) (tag : Nat) (c : Cmd) (status result : Nat) : Prop :=
  m2.hq.cmds = [] ∧
  ∃ x : Cqe, m2.hq.cqes = m.hq.cqes ++ [x] ∧ x.qp = c.qp ∧ x.qid = c.qp ∧ x.asn = c.asn ∧ x.cid = c.ent.cid ∧ x.status = status ∧
    x.result = result ∧ x.tag = some tag ∧ x.notice = false

/-- m2 is m after the only command, c under a tag, has ended with a status for which no rule states a RESULT: the RESULT is open (log 98). -/
def Mach.endedOpen (m m2 : Mach) (tag : Nat) (c : Cmd) (status : Nat) : Prop := ∃ result, m.ended m2 tag c status result

end Sys2Proof.Machine
end

