-- ==== Sys2Proof/Certificates/Slice0/Obligations.lean ====
section
/-! DEFINITION. The statements about the model: what each command does where it completes, what the machine keeps, and where an
instruction traps. Each docstring names the rules of the spec that it comes from. -/

open Sys2Proof Sys2Proof.Machine

/-! ## The block: its queue, its test port, its reset -/

/-- A command at the front of the queue is what a step runs, with the queue's rest. With no command waiting the time base counts one tick,
but while the module is held in reset (R32; log 2 for the tick in place of idling, the model's choice). -/
def Obligations.StepRunsFront : Prop :=
  (∀ (s : State) (c : Instr) (rest : List Instr), step { s with pending := c :: rest } = exec c { s with pending := rest }) ∧
  (∀ (s : State), s.pending = [] →
    ∃ t, step s = .next t ∧ t.tap = s.tap ∧ t.pending = [] ∧
      t.m = { s.m with tb := if s.m.pwr.hotReset || s.m.pwr.noVin || s.m.lands.nresetLow then s.m.tb else s.m.tb + 1 })

/-- Every command answers a next state in every state, and none touches the queue of the commands that wait: the model neither faults nor
refuses. -/
def Obligations.EveryCommandAnswers : Prop :=
  ∀ (i : Instr) (s : State), ∃ t, exec i s = .next t ∧ t.pending = s.pending

/-- The test access port: each instruction and what its data register captures; EXTEST acts while nRESET is low, DBGACC below level 2. A
DBGACC update performs one access where the module runs: a word of memory past every cache, a register as ring 0; what it came to is
captured, and event 996 tells of a refusal (R6, R614 to R616, R618). Only the commands of the test access port and its own reset change
the port: no register access, no reset of the module and no power event reaches it (R607, R614). -/
def Obligations.TestPort : Prop :=
  (∀ (s : State) (v : BitVec 2696) (u : BitVec 106),
    let t := s.tap
    let a := (u.extractLsb' 64 40).toNat
    let d := u.extractLsb' 0 64
    exec .extest s = .next { s with tap := { t with ir := .extest, dr := if s.m.lands.nresetLow then t.bsr else 0 } } ∧
    exec (.samplePreload v) s = .next { s with tap := { ir := .samplePreload, dr := v, bsr := v } } ∧
    exec .idcode s = .next { s with tap := { t with ir := .idcode, dr := 0x1B96A0F3 } } ∧
    exec .testLogicReset s = .next { s with tap := { t with ir := .idcode, dr := 0x1B96A0F3 } } ∧
    exec .clamp s = .next { s with tap := { t with ir := .clamp, dr := 0 } } ∧
    exec .highz s = .next { s with tap := { t with ir := .highz, dr := 0 } } ∧
    exec .bypass s = .next { s with tap := { t with ir := .bypass, dr := 0 } } ∧
    (s.m.fwa.level = 2 → exec .dbgacc s = .next { s with tap := { t with ir := .dbgacc, dr := 0 } }) ∧
    (s.m.fwa.level ≠ 2 → exec .dbgacc s = .next { s with tap := { t with ir := .dbgacc, dr := s.m.dbg.capture.setWidth 2696 } }) ∧
    (t.ir ≠ .dbgacc ∨ s.m.fwa.level = 2 → exec (.dbgaccUpdate u) s = .next s) ∧
    (t.ir = .dbgacc → s.m.fwa.level = 0 → s.m.dark = false → a % 8 = 0 →
      (∀ m1 b, u.getLsbD 104 = false → (regionOf a = .rom ∨ regionOf a = .fwa ∨ regionOf a = .granary) → s.m.readBytes a 8 = (m1, .ok b) →
        exec (.dbgaccUpdate u) s = .next { s with
          m := { m1 with dbg := { m1.dbg with accOk := true, accAddr := u.extractLsb' 64 40, accData := w64 (leNat b) } }
          tap := { t with dr := ({ m1.dbg with accOk := true, accAddr := u.extractLsb' 64 40, accData := w64 (leNat b) } : Dbg).capture.setWidth 2696 } }) ∧
      (u.getLsbD 104 = true → regionOf a = .granary → s.m.fwa.limp = false →
        ∃ m2 : Mach, exec (.dbgaccUpdate u) s = .next { s with m := m2, tap := { t with dr := m2.dbg.capture.setWidth 2696 } } ∧
          m2.dbg.accOk = true ∧ m2.dbg.accData = d ∧ m2.dbg.accAddr = u.extractLsb' 64 40 ∧ m2.mem = (s.m.storeMem a (leBytes 8 d.toNat)).mem) ∧
      (u.getLsbD 104 = false → a = 0x200000000 →
        ∃ m2 : Mach, exec (.dbgaccUpdate u) s = .next { s with m := m2, tap := { t with dr := m2.dbg.capture.setWidth 2696 } } ∧
          m2.dbg.accOk = true ∧ m2.dbg.accData = 0x4B9600A1 ∧ m2.mem = s.m.mem)) ∧
    (t.ir = .dbgacc → s.m.fwa.level ≠ 2 → s.m.dark = false → a % 8 ≠ 0 →
      ∃ m2 : Mach, exec (.dbgaccUpdate u) s = .next { s with m := m2, tap := { t with dr := m2.dbg.capture.setWidth 2696 } } ∧
        m2.dbg.accOk = false ∧ m2.dbg.accData = 0 ∧ m2.mem = s.m.mem ∧ (s.m.dbg.frozen = false → s.m.counted m2 996))) ∧
  (∀ (i : Instr) (s t : State), exec i s = .next t →
    (∀ v, i ≠ .samplePreload v) → i ∉ [Instr.extest, .idcode, .clamp, .highz, .dbgacc, .bypass, .testLogicReset] →
    (∀ v, i ≠ .dbgaccUpdate v) → t.tap = s.tap)

/-- Every step keeps the identity of the module in the test port's data register while IDCODE is selected (R6, R614). -/
def Obligations.TapIdentityKept : Prop :=
  ∀ (s t : State), s.tap.identified = true → step s = .next t → t.tap.identified = true

/-- Right after reset IDCODE is selected with the identity of the HK96, memory is canonical, and the books balance. -/
def Obligations.ResetIsSafe : Prop :=
  State.reset.safe = true

/-- What the spec gives the machine after reset: measurement registers that read zero (R446), timers at all ones (R198), the depth of the
ready-list pool (R191), mailbox windows of 1,000,000 ticks (R202), the pools of the books (R70, R389), the credit classes (R58), 512
SYSTEM buffers of the scheduler (R175), and FWA_SENSE at 15 (R561). -/
def Obligations.ResetValues : Prop :=
  let m := State.reset.m
  (∀ n w, n < 32 → w < 8 → m.mregWord n w = 0) ∧ (∀ k, (m.tmr k).cmp = BitVec.allOnes 64) ∧ m.sch.pool = 8192 ∧
  (∀ k, (m.box k).tmo = 1000000 ∧ (m.box k).full = false ∧ (m.box k).pend = 0) ∧
  (List.range 10).map (fun k => (m.ledger k).total) = [12288, 65536, 32768, 8192, 4096, 512, 256, 64, 16777216, 3072] ∧
  (List.range 7).map (fun c => (m.cls c).floor) = [1024, 1024, 1024, 2048, 1024, 0, 0] ∧
  (List.range 7).map (fun c => (m.cls c).ceil) = [12288, 12288, 12288, 12288, 12288, 12288, 4096] ∧
  m.countBufs (fun b => b.owner == 0xC000 && b.cls == 0) = 512 ∧ m.fwa.sense = 15 ∧ (∀ k, (m.thr k).state = .free) ∧ m.tb = 0

/-! ## Encoding (R115, R126) -/

/-- Every well-formed instruction of the Aedjor set has a word, and that word decodes to it on its core: no bit of an operand is lost.
Words laid out from the formats of R126 decode to the instructions they stand for. -/
def Obligations.DecodeEncode : Prop :=
  (∀ (i : Instr) (c : Fin 72) (gd : BitVec 4), i.onCore = some (c, gd) → WellFormed i = true →
    ∃ w, encode i = some w ∧ decodeInsn c w = some i) ∧
  (∀ (c : Fin 72),
    decodeInsn c 0x20464280 = some (.add c 2 3 4 5) ∧ decodeInsn c 0x04D4BFF8 = some (.ldD c 0 10 11 0xFF8) ∧
    decodeInsn c 0x983FFFFD = some (.br c 9 0x3FFFFD) ∧ decodeInsn c 0 = none)

/-! ## An instruction on a core (R95, R109, R115, R613) -/

/-- Whatever the instruction: on a core with no thread that can run nothing happens; a fetch that faults or a breakpoint takes its
exception before the guard is looked at; a guard that is 0 makes the instruction retire with no other effect; a reserved encoding takes
ILLEGAL-INSTRUCTION. -/
def Obligations.BeforeTheBody : Prop :=
  ∀ (i : Instr) (s : State) (c : Fin 72) (gd : BitVec 4) (k : Nat) (m1 : Mach), i.onCore = some (c, gd) →
    (s.m.runner c = none → exec i s = .next s) ∧
    (s.m.runner c = some k →
      (∀ x d xa, s.m.fetch c k = (m1, .fault x d xa) → exec i s = .next (s.on (m1.exception k 0 x d xa))) ∧
      (∀ b, s.m.fetch c k = (m1, .ok ()) → m1.breakpoint k = some b →
        exec i s = .next (s.on (m1.exception k 0 9 b (pcVal (m1.thr k).pc))))) ∧
    (s.m.fetched c k m1 → (m1.thr k).guard gd = false → exec i s = .next (s.on (m1.completes k id))) ∧
    (s.m.begins c gd k m1 → WellFormed i = false → exec i s = .next (s.on (m1.exception k ((encode i).getD 0) 1 0 0)))

/-- A fetch (of DRAM: of a line whose words all read well) changes no thread but by a readiness that an error event brings, and nothing of
the time base, SYS, the granary, the mailboxes, the queues, the slices, the translation, the engines, the digests and keys, the winnow
array, the scans and the protections. -/
def Obligations.FetchFrame : Prop :=
  ∀ (m m1 : Mach) (c : Fin 72) (k : Nat) (r : Acc Unit), m.fetch c k = (m1, r) →
    (∀ q, regionOf (pcAddr (m.thr k).pc) = .dram q → (m.peekLine (pcAddr (m.thr k).pc / 64)).isSome) →
    (∀ j, (m.thr j).sameBody (m1.thr j)) ∧ ((m.thr k).state = .running → m1.thr k = m.thr k) ∧
    m1.tb = m.tb ∧ m1.sys = m.sys ∧ m1.grn = m.grn ∧ m1.mbx = m.mbx ∧ m1.hq = m.hq ∧ m1.slc = m.slc ∧ m1.map = m.map ∧ m1.eng = m.eng ∧
    m1.dgs = m.dgs ∧ m1.wnw = m.wnw ∧ m1.scans = m.scans ∧ m1.lands = m.lands ∧ m1.fch = m.fch ∧ m1.port = m.port ∧
    m1.sch.cores = m.sch.cores ∧ m1.sch.timers = m.sch.timers

/-- General register 0 and predicate 0 discard writes and read 0 and 1; every other register reads what was last written to it, and a
write to one leaves the rest (R87, R88). Completing an instruction touches its own thread alone: the pc goes on by one word, the count of
retired instructions by one, and nothing else but the instruction's own effect changes while no result is pending. -/
def Obligations.RegistersAndRetirement : Prop :=
  (∀ (t : Thr) (r q : BitVec 5) (v : W64) (p o : BitVec 3) (b : Bool),
    t.gw 0 v = t ∧ t.gr 0 = 0 ∧ (r ≠ 0 → (t.gw r v).gr r = v) ∧ (q ≠ r → (t.gw r v).gr q = t.gr q) ∧
    t.pw 0 b = t ∧ t.pr 0 = true ∧ (p ≠ 0 → (t.pw p b).pr p = b) ∧ (o ≠ p → (t.pw p b).pr o = t.pr o) ∧
    (t.gw r v).p = t.p ∧ (t.pw p b).g = t.g ∧ (t.gw r v).pc = t.pc ∧ (t.pw p b).pc = t.pc) ∧
  (∀ (m : Mach) (k : Nat) (f : Thr → Thr),
    (∀ j, j ≠ k → (m.completes k f).thr j = m.thr j) ∧
    m.completes k f = { m with sch := { m.sch with thrs := (m.completes k f).sch.thrs } } ∧
    ((f (m.thr k)).prods = [] → (f (m.thr k)).pload = none →
      (m.completes k f).thr k = { f (m.thr k) with pc := (f (m.thr k)).pc + 1, retired := (f (m.thr k)).retired + 1 }))

/-- A product of MUL or MULH lands in ph and pl just after the third retired instruction that follows it, and not before (R121). With
TS_LDC set a load's value is in its register just after the next retired instruction, and not before; otherwise at once (R122, R123). MUL
and MULH put their 128-bit product in flight (R121, R140); DIV.STEP does one step of a restoring division on ph and pl (R141). -/
def Obligations.ProductsAndDivision : Prop :=
  (∀ (t : Thr), t.prods = [] → t.pload = none →
    (∀ (p : W64 × W64), let u := (t.issueProduct p).retire
      (u.ph = t.ph ∧ u.pl = t.pl) ∧ (u.retire.ph = t.ph ∧ u.retire.pl = t.pl) ∧ (u.retire.retire.ph = t.ph ∧ u.retire.retire.pl = t.pl) ∧
      u.retire.retire.retire.ph = p.1 ∧ u.retire.retire.retire.pl = p.2 ∧ u.retire.retire.retire.prods = []) ∧
    (∀ (rd : BitVec 5) (v : W64),
      (t.ldc = false → t.deliver rd v = t.gw rd v) ∧
      (t.ldc = true → (∀ q, (t.deliver rd v).retire.gr q = t.gr q) ∧ ∀ q, (t.deliver rd v).retire.retire.gr q = (t.gw rd v).gr q))) ∧
  (∀ (s : State) (c : Fin 72) (gd : BitVec 4) (ra rb : BitVec 5) (k : Nat) (m1 : Mach), s.m.begins c gd k m1 →
    let t := m1.thr k
    let a := t.gr ra
    let b := t.gr rb
    (∃ hi lo : W64, exec (.mul c gd ra rb) s = .next (s.on (m1.completes k fun t => t.issueProduct (hi, lo))) ∧
      hi.toNat * 2 ^ 64 + lo.toNat = a.toNat * b.toNat) ∧
    (∃ hi lo : W64, exec (.mulh c gd ra rb) s = .next (s.on (m1.completes k fun t => t.issueProduct (hi, lo))) ∧
      hi.toInt * 2 ^ 64 + lo.toNat = a.toInt * b.toInt) ∧
    (∃ hi lo : W64, exec (.divStep c gd ra) s = .next (s.on (m1.completes k fun t => { t with ph := hi, pl := lo })) ∧
      let r := 2 * t.ph.toNat + t.pl.toNat / 2 ^ 63
      let q := 2 * t.pl.toNat % 2 ^ 64
      if a.toNat ≤ r then hi = BitVec.ofNat 64 (r - a.toNat) ∧ lo.toNat = q + 1 else hi = BitVec.ofNat 64 r ∧ lo.toNat = q))

/-- Exception entry saves the pc, the cause word, the address and the pending effects, sets TS_EXC and goes to the handler (R110); with
TS_EXC set or no handler the thread stops and its record keeps the cause (R112). Every other thread keeps its registers. A word that
encodes no instruction takes ILLEGAL-INSTRUCTION, with the word in xc; a filter thread that has retired its whole budget is stopped
precisely, with cause 0 and detail 2, at the instruction it has not begun (R115, R494, R502). -/
def Obligations.ExceptionEntry : Prop :=
  (∀ (m : Mach) (k x d : Nat) (word : W32) (xa : W64),
    ((m.thr k).exc = false → (m.thr k).handler ≠ 0 →
      let t := m.thr k
      let u := (m.exception k word x d xa).thr k
      u.xpc = t.pc ∧ u.xc = ((word.setWidth 64 <<< 32) ||| at_ 8 d ||| at_ 0 x) ∧ u.xa = xa ∧ u.savProds = t.prods ∧ u.savLoad = t.pload ∧
      u.prods = [] ∧ u.pload = none ∧ u.exc = true ∧ u.pc = t.handler ∧ u.g = t.g ∧ u.p = t.p ∧ u.ph = t.ph ∧ u.pl = t.pl ∧
      u.state = t.state ∧ (∀ j, j ≠ k → (m.exception k word x d xa).thr j = m.thr j) ∧ (m.exception k word x d xa).mem = m.mem) ∧
    ((m.thr k).exc = true ∨ (m.thr k).handler = 0 →
      let u := (m.exception k word x d xa).thr k
      u.state = .stopped ∧ u.xrec = ((word.setWidth 64 <<< 32) ||| at_ 8 d ||| at_ 0 x) ∧ u.pc = (m.thr k).pc ∧ u.g = (m.thr k).g ∧
      (m.exception k word x d xa).mem = m.mem)) ∧
  (∀ (s : State) (c : Fin 72) (word : W32) (k : Nat) (m1 : Mach),
    (s.m.begins c (word.extractLsb' 28 4) k m1 → decodeInsn c word = none →
      exec (.illegalInstruction c word) s = .next (s.on (m1.exception k word 1 0 0))) ∧
    (s.m.resting = false → (s.m.core c).thr = some k → (s.m.thr k).state = .running → s.m.spent k = true →
      exec (.insnmaxExceeded c) s = .next (s.on (s.m.stopThread k 0 0 2)) ∧ ((s.m.stopThread k 0 0 2).thr k).state = .stopped ∧
      ((s.m.stopThread k 0 0 2).thr k).pc = (s.m.thr k).pc ∧ ((s.m.stopThread k 0 0 2).thr k).xrec = 0x200))

/-! ## Arithmetic, logic and predicates (R121, R130 to R134, R140 to R144) -/

/-- The two-operand instructions write rd and retire (R130). The extensions of R130 and the bit operations of R142 write rd and retire;
the value is given bit by bit, or by what it counts. The other functions of major OP, and its reserved fields that are not zero, decode to
nothing. -/
def Obligations.RegisterResults : Prop :=
  (∀ (s : State) (c : Fin 72) (gd : BitVec 4) (rd ra rb : BitVec 5) (k : Nat) (m1 : Mach), s.m.begins c gd k m1 →
    let a := (m1.thr k).gr ra
    let b := (m1.thr k).gr rb
    let n := b.toNat % 64
    let put := fun (i : Instr) (v : W64) => exec i s = .next (s.on (m1.gives k rd v))
    put (.add c gd rd ra rb) (a + b) ∧ put (.sub c gd rd ra rb) (a - b) ∧ put (.and c gd rd ra rb) (a &&& b) ∧
    put (.or c gd rd ra rb) (a ||| b) ∧ put (.xor c gd rd ra rb) (a ^^^ b) ∧ put (.andn c gd rd ra rb) (a &&& ~~~b) ∧
    put (.shl c gd rd ra rb) (a <<< n) ∧ put (.shr c gd rd ra rb) (a >>> n) ∧ put (.sar c gd rd ra rb) (a.sshiftRight n) ∧
    put (.ror c gd rd ra rb) (a.rotateRight n) ∧
    put (.min c gd rd ra rb) (if a.toInt < b.toInt then a else b) ∧ put (.max c gd rd ra rb) (if a.toInt < b.toInt then b else a) ∧
    put (.minu c gd rd ra rb) (if a.toNat < b.toNat then a else b) ∧ put (.maxu c gd rd ra rb) (if a.toNat < b.toNat then b else a)) ∧
  (∀ (s : State) (c : Fin 72) (gd : BitVec 4) (rd ra : BitVec 5) (k : Nat) (m1 : Mach), s.m.begins c gd k m1 →
    let a := (m1.thr k).gr ra
    let ones := (List.range 64).countP fun i => a.getLsbD i
    let put := fun (i : Instr) (p : W64 → Prop) => ∃ v, exec i s = .next (s.on (m1.gives k rd v)) ∧ p v
    put (.sextB c gd rd ra) (fun v => v = (a.setWidth 8).signExtend 64) ∧ put (.sextH c gd rd ra) (fun v => v = (a.setWidth 16).signExtend 64) ∧
    put (.sextW c gd rd ra) (fun v => v = (a.setWidth 32).signExtend 64) ∧
    put (.zextB c gd rd ra) (fun v => v.toNat = a.toNat % 2 ^ 8) ∧ put (.zextH c gd rd ra) (fun v => v.toNat = a.toNat % 2 ^ 16) ∧
    put (.zextW c gd rd ra) (fun v => v.toNat = a.toNat % 2 ^ 32) ∧
    put (.par c gd rd ra) (fun v => v.toNat = ones % 2) ∧ put (.popc c gd rd ra) (fun v => v.toNat = ones) ∧
    put (.brev c gd rd ra) (fun v => ∀ i, i < 64 → v.getLsbD i = a.getLsbD (63 - i)) ∧
    put (.brevB c gd rd ra) (fun v => ∀ i, i < 64 → v.getLsbD i = a.getLsbD (i / 8 * 8 + (7 - i % 8))) ∧
    put (.bswap c gd rd ra) (fun v => ∀ i, i < 64 → v.getLsbD i = a.getLsbD ((7 - i / 8) * 8 + i % 8)) ∧
    put (.clz c gd rd ra) (fun v => v.toNat = ((List.range 64).find? fun i => a.getLsbD (63 - i)).getD 64) ∧
    put (.ctz c gd rd ra) (fun v => v.toNat = ((List.range 64).find? fun i => a.getLsbD i).getD 64) ∧
    (∀ w : W32,
      let fn := w.toNat % 128
      w.toNat / 2 ^ 22 % 64 = 1 → fn = 14 ∨ fn = 15 ∨ 22 ≤ fn ∨ (16 ≤ fn ∧ w.toNat / 2 ^ 7 % 32 ≠ 0) → decodeInsn c w = none))

/-- The immediate forms of R131 and MOVI of R132 write rd and retire. CMP, CMPI and PRED set pd and retire (R133, R134); CMP with a
reserved comb or condition is a reserved encoding and takes ILLEGAL-INSTRUCTION. -/
def Obligations.ImmediateAndPredicateResults : Prop :=
  (∀ (s : State) (c : Fin 72) (gd : BitVec 4) (rd ra : BitVec 5) (imm : BitVec 12) (n : BitVec 6) (h : BitVec 2) (w : BitVec 16)
    (k : Nat) (m1 : Mach), s.m.begins c gd k m1 →
    let a := (m1.thr k).gr ra
    let old := (m1.thr k).gr rd
    let x : W64 := imm.signExtend 64
    let put := fun (i : Instr) (v : W64) => exec i s = .next (s.on (m1.gives k rd v))
    put (.addi c gd rd ra imm) (a + x) ∧ put (.andi c gd rd ra imm) (a &&& x) ∧ put (.ori c gd rd ra imm) (a ||| x) ∧
    put (.xori c gd rd ra imm) (a ^^^ x) ∧
    put (.shifti c gd rd ra 0 n) (a <<< n.toNat) ∧ put (.shifti c gd rd ra 1 n) (a >>> n.toNat) ∧
    put (.shifti c gd rd ra 2 n) (a.sshiftRight n.toNat) ∧ put (.shifti c gd rd ra 3 n) (a.rotateRight n.toNat) ∧
    (∃ v, exec (.movi c gd h rd false w) s = .next (s.on (m1.gives k rd v)) ∧ v.toNat = w.toNat * 2 ^ (16 * h.toNat)) ∧
    (∃ v, exec (.movi c gd h rd true w) s = .next (s.on (m1.gives k rd v)) ∧
      ∀ i, i < 64 → v.getLsbD i = if i / 16 = h.toNat then w.getLsbD (i % 16) else old.getLsbD i)) ∧
  (∀ (s : State) (c : Fin 72) (gd : BitVec 4) (pd pa pb cond3 : BitVec 3) (ra rb : BitVec 5) (cond : BitVec 4) (imm : BitVec 11)
    (k : Nat) (m1 : Mach), s.m.begins c gd k m1 →
    let t := m1.thr k
    let a := t.gr ra
    let b := t.gr rb
    let x : W64 := imm.signExtend 64
    let holds := fun (n : Nat) (b : W64) =>
      [a == b, a != b, decide (a.toInt < b.toInt), decide (b.toInt ≤ a.toInt), decide (a.toNat < b.toNat), decide (b.toNat ≤ a.toNat),
       (a &&& b) != 0, (a &&& b) == 0].getD n false
    let put := fun (i : Instr) (v : Bool) => exec i s = .next (s.on (m1.completes k fun t => t.pw pd v))
    (cond.toNat < 8 →
      put (.cmp c gd pd ra rb 0 cond) (holds cond.toNat b) ∧ put (.cmp c gd pd ra rb 1 cond) (t.pr pd && holds cond.toNat b) ∧
      put (.cmp c gd pd ra rb 2 cond) (t.pr pd || holds cond.toNat b)) ∧
    (∀ comb, comb = 3 ∨ 8 ≤ cond.toNat → exec (.cmp c gd pd ra rb comb cond) s =
      .next (s.on (m1.exception k ((encode (.cmp c gd pd ra rb comb cond)).getD 0) 1 0 0))) ∧
    put (.cmpi c gd pd cond3 ra imm) (holds cond3.toNat x) ∧
    put (.pred c gd pd pa pb 0) (t.pr pa && t.pr pb) ∧ put (.pred c gd pd pa pb 1) (t.pr pa || t.pr pb) ∧
    put (.pred c gd pd pa pb 2) (t.pr pa ^^ t.pr pb) ∧ put (.pred c gd pd pa pb 3) (t.pr pa && !t.pr pb))

/-- CRC.STEP folds the low bytes of rb into the low bits of ra, and what it writes fits the width of its polynomial (R143); over the nine
bytes "123456789" from the initial value, with the final XOR, the four polynomials give the check values of R144. -/
def Obligations.CrcStepResult : Prop :=
  (∀ (s : State) (c : Fin 72) (gd : BitVec 4) (rd ra rb : BitVec 5) (pp ss : BitVec 2) (k : Nat) (m1 : Mach), s.m.begins c gd k m1 →
    let t := m1.thr k
    let w := [32, 32, 64, 16].getD pp.toNat 0
    ∃ v, exec (.crcStep c gd rd ra rb pp ss) s = .next (s.on (m1.gives k rd v)) ∧ v.toNat < 2 ^ w ∧
      v = crcFold pp (BitVec.ofNat 64 ((t.gr ra).toNat % 2 ^ w)) ((List.range (2 ^ ss.toNat)).map fun i => (t.gr rb).extractLsb' (8 * i) 8)) ∧
  (let nine : List Byte := [0x31, 0x32, 0x33, 0x34, 0x35, 0x36, 0x37, 0x38, 0x39]
   crcFold 0 0xFFFFFFFF nine ^^^ 0xFFFFFFFF = 0xE3069283 ∧ crcFold 1 0xFFFFFFFF nine ^^^ 0xFFFFFFFF = 0xCBF43926 ∧
   crcFold 2 0 nine = 0x6C40DF5F0B497347 ∧ crcFold 3 0xFFFF nine = 0x29B1)

/-! ## Memory (R97 to R101, R135, R136, R523, R524) -/

/-- The byte-lane code: a stored byte reads clean, a single wrong bit of its thirteen is corrected, and two wrong bits are found (R523,
R524). -/
def Obligations.ByteLaneCode : Prop :=
  ∀ (d : Byte),
    let flip := fun (i : Nat) (x : Byte × BitVec 5) => if i < 8 then (x.1 ^^^ BitVec.ofNat 8 (2 ^ i), x.2) else (x.1, x.2 ^^^ BitVec.ofNat 5 (2 ^ (i - 8)))
    let read := fun (x : Byte × BitVec 5) => decodeByte x.1 x.2
    read (d, checkOf d) = .clean d ∧ (∀ i, i < 13 → read (flip i (d, checkOf d)) = .corrected d) ∧
    (∀ i j, i < j → j < 13 → read (flip i (flip j (d, checkOf d))) = .bad)

/-- A load of mapped memory that its thread may read, of a word that its data cache gives: rd takes the bytes little-endian, extended as
the mnemonic says; with TS_LDC set the value is pending (R122, R135). A store to mapped memory that its thread may write lands the low
bytes of rd through the core's domain and retires (R135, R136). -/
def Obligations.LoadStoreResults : Prop :=
  (∀ (s : State) (c : Fin 72) (gd : BitVec 4) (rd ra : BitVec 5) (imm : BitVec 12) (k : Nat) (m1 m2 : Mach) (w : List Byte),
    s.m.begins c gd k m1 →
    let a := ((m1.thr k).gr ra + imm.signExtend 64).toNat
    a < 2 ^ 40 → regionOf a ≠ .control → m1.windowByte k .read a = none → m1.coreWord c false k (a / 8 * 8) = (m2, .ok w) →
    let v := fun n => leNat ((w.drop (a % 8)).take n)
    let put := fun (i : Instr) (n : Nat) (x : W64) => a % n = 0 → exec i s = .next (s.on (m2.completes k fun t => t.deliver rd x))
    put (.ldB c gd rd ra imm) 1 (w64 (v 1)) ∧ put (.ldH c gd rd ra imm) 2 (w64 (v 2)) ∧ put (.ldW c gd rd ra imm) 4 (w64 (v 4)) ∧
    put (.ldD c gd rd ra imm) 8 (w64 (v 8)) ∧ put (.ldBs c gd rd ra imm) 1 ((BitVec.ofNat 8 (v 1)).signExtend 64) ∧
    put (.ldHs c gd rd ra imm) 2 ((BitVec.ofNat 16 (v 2)).signExtend 64) ∧ put (.ldWs c gd rd ra imm) 4 ((BitVec.ofNat 32 (v 4)).signExtend 64)) ∧
  (∀ (s : State) (c : Fin 72) (gd : BitVec 4) (rd ra : BitVec 5) (imm : BitVec 12) (k : Nat) (m1 : Mach), s.m.begins c gd k m1 →
    let t := m1.thr k
    let a := (t.gr ra + imm.signExtend 64).toNat
    a < 2 ^ 40 → regionOf a ≠ .control → m1.windowByte k .write a = none → m1.storeReady a = .ok [] → (m1.core c).thr = some k →
    let put := fun (i : Instr) (n : Nat) => a % n = 0 → exec i s = .next (s.on ((m1.coreStore c a (leBytes n (t.gr rd).toNat)).completes k id))
    put (.stB c gd rd ra imm) 1 ∧ put (.stH c gd rd ra imm) 2 ∧ put (.stW c gd rd ra imm) 4 ∧ put (.stD c gd rd ra imm) 8)

/-- Loads and stores that stop short: a misaligned address, an address above 40 bits, and an access that the ring may not make take their
exceptions, with nothing read or written (R97, R98, R100, R108). -/
def Obligations.AccessFaults : Prop :=
  ∀ (s : State) (c : Fin 72) (gd : BitVec 4) (rd ra : BitVec 5) (imm : BitVec 12) (k : Nat) (m1 : Mach), s.m.begins c gd k m1 →
    let t := m1.thr k
    let a : W64 := t.gr ra + imm.signExtend 64
    let traps := fun (i : Instr) (x d : Nat) => exec i s = .next (s.on (m1.exception k ((encode i).getD 0) x d a))
    ((2 ^ 40 ≤ a.toNat ∨ regionOf a.toNat ≠ .control) →
      (∀ i n, (i, n) ∈ [(Instr.ldH c gd rd ra imm, 2), (.ldHs c gd rd ra imm, 2), (.ldW c gd rd ra imm, 4), (.ldWs c gd rd ra imm, 4),
          (.ldD c gd rd ra imm, 8), (.stH c gd rd ra imm, 2), (.stW c gd rd ra imm, 4), (.stD c gd rd ra imm, 8)] →
        a.toNat % n ≠ 0 → traps i 4 0)) ∧
    (2 ^ 40 ≤ a.toNat → a.toNat % 8 = 0 → ∀ i, i ∈ [Instr.ldB c gd rd ra imm, .ldBs c gd rd ra imm, .ldH c gd rd ra imm,
        .ldHs c gd rd ra imm, .ldW c gd rd ra imm, .ldWs c gd rd ra imm, .ldD c gd rd ra imm, .stB c gd rd ra imm, .stH c gd rd ra imm,
        .stW c gd rd ra imm, .stD c gd rd ra imm] →
      if t.ring = .r0 then traps i 5 1 else traps i 3 5) ∧
    (a.toNat < 2 ^ 40 → regionOf a.toNat ≠ .control → a.toNat % 8 = 0 →
      (∀ d, m1.windowByte k .read a.toNat = some d → traps (.ldB c gd rd ra imm) 3 d ∧ traps (.ldD c gd rd ra imm) 3 d) ∧
      (∀ d, m1.windowByte k .write a.toNat = some d → traps (.stB c gd rd ra imm) 3 d ∧ traps (.stD c gd rd ra imm) 3 d)) ∧
    (a.toNat < 2 ^ 40 → regionOf a.toNat = .control → ∀ i, i ∈ [Instr.ldB c gd rd ra imm, .ldH c gd rd ra imm, .ldW c gd rd ra imm,
        .ldBs c gd rd ra imm, .ldHs c gd rd ra imm, .ldWs c gd rd ra imm,
        .stB c gd rd ra imm, .stH c gd rd ra imm, .stW c gd rd ra imm] → traps i 5 2) ∧
    (a.toNat < 2 ^ 40 → regionOf a.toNat = .control → a.toNat % 8 ≠ 0 → traps (.ldD c gd rd ra imm) 5 2 ∧ traps (.stD c gd rd ra imm) 5 2)

/-- A store whose line the domain's shared cache holds changes that line alone: the stored bytes of it are the new ones, every other byte
of the line, every other line and all of memory stand as before (R510, R519). -/
def Obligations.StoreHitFrame : Prop :=
  ∀ (m : Mach) (c : Fin 72) (a : Nat) (b : List Byte) (l : Line),
    m.bypass (domainOf c) = false → (m.shared (domainOf c)).find (a / 64) = some l → a % 64 + b.length ≤ 64 →
    let m2 := m.coreStore c a b
    m2.mem = m.mem ∧ m2.sch = m.sch ∧ m2.grn = m.grn ∧
    (∃ l2, (m2.shared (domainOf c)).find (a / 64) = some l2 ∧ l2.dirty = true ∧
      (∀ o, o < 64 → l2.byte o = if a % 64 ≤ o ∧ o < a % 64 + b.length then b.getD (o - a % 64) 0 else l.byte o)) ∧
    (∀ n, n ≠ a / 64 → (m2.shared (domainOf c)).find n = (m.shared (domainOf c)).find n) ∧
    (∀ x, x < 9 → x ≠ domainOf c → m2.shared x = m.shared x)

/-! ## Control flow and special registers (R111, R137, R139, R150) -/

/-- BR and BL go to the pc-relative target, JR and JLR to the value of ra; BL links in g31 and JLR in rd. A target outside 40 bits, and
for JR and JLR one that is not aligned, is an exception of the branch itself, and no link is written (R137, R139). RESUME with TS_EXC set
returns to xpc with the saved pending effects and clears TS_EXC, and every other register stands; with TS_EXC clear it is ILLEGAL-
INSTRUCTION (R111). -/
def Obligations.ControlTransfers : Prop :=
  ∀ (s : State) (c : Fin 72) (gd : BitVec 4) (rd ra : BitVec 5) (off : BitVec 22) (k : Nat) (m1 : Mach), s.m.begins c gd k m1 →
    let t := m1.thr k
    let link := pcVal t.pc + 4
    let near : W64 := pcVal t.pc + 4 * off.signExtend 64
    let far := t.gr ra
    let goes := fun (i : Instr) (f : Thr → Thr) (a : W64) => ∃ p, pcAddr p = a.toNat ∧ exec i s = .next (s.on (m1.jumps k f p))
    let traps := fun (i : Instr) (x d : Nat) (a : W64) => exec i s = .next (s.on (m1.exception k ((encode i).getD 0) x d a))
    (near.toNat < 2 ^ 40 → goes (.br c gd off) id near ∧ goes (.bl c gd off) (fun t => t.gw 31 link) near) ∧
    (2 ^ 40 ≤ near.toNat → traps (.br c gd off) 5 1 near ∧ traps (.bl c gd off) 5 1 near) ∧
    (far.toNat < 2 ^ 40 → far.toNat % 4 = 0 → goes (.jr c gd ra) id far ∧ goes (.jlr c gd rd ra) (fun t => t.gw rd link) far) ∧
    (far.toNat % 4 ≠ 0 → traps (.jr c gd ra) 4 0 far ∧ traps (.jlr c gd rd ra) 4 0 far) ∧
    (2 ^ 40 ≤ far.toNat → far.toNat % 4 = 0 → traps (.jr c gd ra) 5 1 far ∧ traps (.jlr c gd rd ra) 5 1 far) ∧
    (t.exc = true → exec (.resume c gd) s = .next (s.on (m1.setThr k { t with
      pc := t.xpc, exc := false, prods := t.savProds, pload := t.savLoad, savProds := [], savLoad := none, retired := t.retired + 1 }))) ∧
    (t.exc = false → traps (.resume c gd) 1 0 0)

/-- MFS gives the special registers, the time base as it stands; rings 0 and 1 have no wn. MTS writes pl, ph and bits [39:2] of xpc (R33,
R89 to R93, R150). -/
def Obligations.SpecialRegisters : Prop :=
  ∀ (s : State) (c : Fin 72) (gd : BitVec 4) (rd ra : BitVec 5) (k : Nat) (m1 : Mach), s.m.begins c gd k m1 →
    let t := m1.thr k
    let reads := fun (n : BitVec 5) (v : W64) => exec (.mfs c gd rd n) s = .next (s.on (m1.gives k rd v))
    reads 0 t.pl ∧ reads 1 t.ph ∧ reads 2 (w64 (pcAddr t.pc)) ∧ reads 3 (w64 m1.tb) ∧ reads 4 (t.ts k) ∧ reads 5 (w64 (pcAddr t.xpc)) ∧
    reads 6 t.xc ∧ reads 7 t.xa ∧
    (∀ n : BitVec 5, 8 ≤ n.toNat → n.toNat < 16 →
      if t.ring = .r2 then reads n (tget 0 t.wn (n.toNat - 8))
      else exec (.mfs c gd rd n) s = .next (s.on (m1.exception k ((encode (.mfs c gd rd n)).getD 0) 2 1 0))) ∧
    exec (.mts c gd 0 ra) s = .next (s.on (m1.completes k fun t => { t with pl := t.gr ra })) ∧
    exec (.mts c gd 1 ra) s = .next (s.on (m1.completes k fun t => { t with ph := t.gr ra })) ∧
    (∃ p : PcWord, pcAddr p = (t.gr ra).toNat % 2 ^ 40 / 4 * 4 ∧
      exec (.mts c gd 5 ra) s = .next (s.on (m1.completes k fun t => { t with xpc := p })))

/-! ## Waiting and events (R152 to R157, R174, R194, R196) -/

/-- WAITWORK takes the lowest pending bound event at once, or its thread leaves the core and waits; SLEEP of a past time and FENCE
complete, SLEEP of a later one waits; POST of an event that no thread waits for counts it; YIELD puts the thread at the tail of the list
of its level, stamped now; a thread that has left its core keeps the instruction's pc, and its core asks for work (R152 to R155, R157,
R184). -/
def Obligations.WaitingAndPosting : Prop :=
  ∀ (s : State) (c : Fin 72) (gd : BitVec 4) (rd ra : BitVec 5) (k : Nat) (m1 : Mach), s.m.begins c gd k m1 →
    (m1.core c).thr = some k → (m1.thr k).core = c →
    let t := m1.thr k
    let v := (t.gr ra).toNat
    let leaves := fun (i : Instr) (kind : WaitKind) (p : Thr → Prop) => ∃ m2 : Mach, exec i s = .next (s.on m2) ∧
      (m2.thr k).state = .waiting ∧ (m2.thr k).waitKind = kind ∧ (m2.thr k).pc = t.pc ∧ (m2.thr k).g = t.g ∧ p (m2.thr k) ∧
      (m2.core c).thr = none ∧ (m2.core c).asking = true ∧ m2.mem = m1.mem
    (m1.insnMax k = none → ∀ e, m1.pendingFor k = some (e, none) → exec (.waitwork c gd rd) s =
      .next (s.on ((m1.setEvt e { m1.evt e with pend := (m1.evt e).pend - 1 }).gives k rd (w64 e)))) ∧
    (m1.insnMax k = none → t.stopPend = false → m1.pendingFor k = none → leaves (.waitwork c gd rd) .waitwork fun u => u.waitRd = rd) ∧
    (v ≤ m1.tb → exec (.sleep c gd ra) s = .next (s.on (m1.completes k id))) ∧
    (m1.tb < v → t.stopPend = false → leaves (.sleep c gd ra) .sleep fun u => u.deadline = v) ∧
    exec (.fence c gd) s = .next (s.on (m1.completes k id)) ∧
    (928 ≤ v → v ≤ 991 → (t.ring = .r2 → (m1.evt v).assigned = true ∧ (m1.evt v).slice = t.slice) →
      ((m1.evt v).bound && m1.inWaitwork (m1.evt v).tcb) = false → (m1.evt v).pend < 65535 →
      exec (.post c gd ra) s = .next (s.on ((m1.setEvt v { m1.evt v with pend := (m1.evt v).pend + 1 }).completes k id))) ∧
    (v < 928 ∨ 991 < v → exec (.post c gd ra) s = .next (s.on (m1.exception k ((encode (.post c gd ra)).getD 0) 3 5 0))) ∧
    (t.stopPend = false → m1.entriesUsed + t.groups.length ≤ m1.sch.pool →
      ∃ m2 : Mach, exec (.yield c gd) s = .next (s.on m2) ∧ (m2.thr k).state = .ready ∧ (m2.thr k).wake = .yielded ∧ (m2.thr k).pc = t.pc ∧
        m2.sch.ready = m1.sch.ready ++ [{ tcb := k, level := t.prio, stamp := m1.tb }] ∧
        (m2.core c).thr = none ∧ (m2.core c).asking = true)

/-! ## Block-repeat and range operations (R145 to R149, R156 to R159) -/

/-- A block-repeat instruction whose count is zero completes with no access; CMP.BLK then sets pd and SCAN.BLK clears it. One whose count
is one processes its element, moves the named addresses past it and takes the count to zero; a difference or a hit leaves the registers at
its element (R146). -/
def Obligations.BlockRepeat : Prop :=
  ∀ (s : State) (c : Fin 72) (gd : BitVec 4) (pd : BitVec 3) (esz pp : BitVec 2) (ne : Bool) (k : Nat) (m1 : Mach),
    s.m.begins c gd k m1 → m1.dbg.entering = false →
    let t := m1.thr k
    let n := 2 ^ esz.toNat
    let src := t.gr 25
    let dst := t.gr 26
    let done := fun (i : Instr) (m : Mach) (f : Thr → Thr) => exec i s = .next (s.on (m.completes k f))
    (t.gr 24 = 0 →
      done (.movBlk c gd esz) m1 id ∧ done (.fillBlk c gd esz) m1 id ∧ done (.crcBlk c gd pp) m1 id ∧
      done (.cmpBlk c gd pd esz) m1 (fun t => t.pw pd true) ∧ done (.scanBlk c gd pd esz ne) m1 (fun t => t.pw pd false)) ∧
    (t.gr 24 = 1 →
      (∀ m2 v, m1.readAt c k src n = (m2, .ok v) →
        (∀ m3, m2.writeAt c k ((m2.thr k).gr 26) n v = (m3, .ok ()) → (m3.core c).thr = some k →
          done (.movBlk c gd esz) m3 fun t => ((t.gw 25 (t.gr 25 + w64 n)).gw 26 (t.gr 26 + w64 n)).gw 24 (t.gr 24 - 1)) ∧
        (∀ m3 w, m2.readAt c k ((m2.thr k).gr 26) n = (m3, .ok w) →
          if v = w then
            done (.cmpBlk c gd pd esz) m3 fun t => (((t.gw 25 (t.gr 25 + w64 n)).gw 26 (t.gr 26 + w64 n)).gw 24 (t.gr 24 - 1)).pw pd true
          else done (.cmpBlk c gd pd esz) m3 fun t => t.pw pd false) ∧
        (if (decide (v.toNat = ((m2.thr k).gr 27).toNat % 2 ^ (8 * n)) ^^ ne) = true then
            done (.scanBlk c gd pd esz ne) m2 fun t => t.pw pd true
          else done (.scanBlk c gd pd esz ne) m2 fun t => ((t.gw 25 (t.gr 25 + w64 n)).gw 24 (t.gr 24 - 1)).pw pd false)) ∧
      (∀ m2, m1.writeAt c k dst n (t.gr 27) = (m2, .ok ()) → (m2.core c).thr = some k →
        done (.fillBlk c gd esz) m2 fun t => (t.gw 26 (t.gr 26 + w64 n)).gw 24 (t.gr 24 - 1)) ∧
      (∀ m2 v, m1.readAt c k src 1 = (m2, .ok v) →
        done (.crcBlk c gd pp) m2 fun t =>
          ((t.gw 27 (crcStep pp 0 (t.gr 27) v)).gw 25 (t.gr 25 + 1)).gw 24 (t.gr 24 - 1)))

/-- CACHE.CLN.R and CACHE.INV.R over one line of granary or DRAM that the thread may read, or write: the line is cleaned, or dropped, in
the core's domain, ra comes to the end of the range and rb to zero. With a length of zero nothing happens (R156, R158, R159). -/
def Obligations.CacheRanges : Prop :=
  ∀ (s : State) (c : Fin 72) (gd : BitVec 4) (ra rb : BitVec 5) (k b : Nat) (m1 : Mach), s.m.begins c gd k m1 →
    ra ≠ 0 → rb ≠ 0 → ra ≠ rb →
    let t := m1.thr k
    let done := fun (i : Instr) (m : Mach) (f : Thr → Thr) => exec i s = .next (s.on (m.completes k f))
    (t.gr rb = 0 → done (.cacheClnR c gd ra rb) m1 id ∧ done (.cacheInvR c gd ra rb) m1 id) ∧
    (t.state = .running → (t.gr ra).toNat = 64 * b → t.gr rb = 64 →
      (m1.lineTurn k .read (64 * b) = .act →
        done (.cacheClnR c gd ra rb) (m1.cleanLine c b) (fun t => (t.gw ra (w64 (64 * b + 64))).gw rb 0) ∧
        ∀ l, ((m1.cleanLine c b).shared (domainOf c)).find b = some l → l.dirty = false) ∧
      (m1.lineTurn k .write (64 * b) = .act →
        done (.cacheInvR c gd ra rb) (m1.invalLine c b) (fun t => (t.gw ra (w64 (64 * b + 64))).gw rb 0) ∧
        ((m1.invalLine c b).shared (domainOf c)).find b = none ∧ ((m1.invalLine c b).shared (domainOf c)).buffered b = none ∧
        ∀ d, d ∈ coresOf (domainOf c) → ((m1.invalLine c b).l1i d).find b = none ∧ ((m1.invalLine c b).l1d d).find b = none))

/-! ## Jobs (R161 to R165) -/

/-- JOB.SUBMIT queues the copied descriptor at the port behind the jobs that stand there and gives its handle, once a slot is free; an
address that is not 16-byte aligned, and a port that is none or out of service, take their exceptions (R163, R164). JOB.WAIT and JOB.TEST
of a completed job give its completion word and accept it; of a job still in work JOB.WAIT leaves the core and JOB.TEST clears pd; of a
handle that names no job of the thread JOB.WAIT gives all ones and JOB.TEST clears pd (R165). -/
def Obligations.JobInstructions : Prop :=
  (∀ (s : State) (c : Fin 72) (gd : BitVec 4) (rd ra rb : BitVec 5) (k : Nat) (m1 m2 : Mach) (d : List Byte), s.m.begins c gd k m1 →
    let t := m1.thr k
    let a := (t.gr ra).toNat
    let p := (t.gr rb).toNat
    let i := Instr.jobSubmit c gd rd ra rb
    let traps := fun (x d : Nat) (a : W64) => exec i s = .next (s.on (m1.exception k ((encode i).getD 0) x d a))
    (a % 16 ≠ 0 → traps 4 0 (t.gr ra)) ∧
    (a % 16 = 0 → isPort p = false ∨ m1.portOff p = true → traps 3 5 0) ∧
    (a % 16 = 0 → isPort p = true → m1.portOff p = false → m1.readDesc c k a = (m2, .ok d) → m2.slotFree p = true →
      (t.ring = .r2 → m2.jobBad p (m2.newJob p k d) = none → m2.rangesBad k p (m2.newJob p k d) = none) →
      let j := m2.newJob p k d
      let h := at_ 48 p ||| at_ 44 j.ctx ||| at_ 0 j.num
      exec i s = .next (s.on ((m2.queueJob p j).gives k rd h)) ∧ j.desc = d ∧ j.tcb = k ∧ j.state = .queued ∧
      ((m2.queueJob p j).engine p).jobs = (m2.engine p).jobs ++ [j] ∧ (m2.queueJob p j).mem = m2.mem)) ∧
  (∀ (s : State) (c : Fin 72) (gd : BitVec 4) (rd ra : BitVec 5) (pd : BitVec 3) (k : Nat) (m1 : Mach), s.m.begins c gd k m1 →
    (m1.core c).thr = some k → (m1.thr k).core = c →
    let h := (m1.thr k).gr ra
    (m1.jobOf k h = none →
      exec (.jobWait c gd rd ra) s = .next (s.on (m1.gives k rd (BitVec.allOnes 64))) ∧
      exec (.jobTest c gd rd ra pd) s = .next (s.on (m1.completes k fun t => t.pw pd false))) ∧
    (∀ p j, m1.jobOf k h = some (p, j) → j.state = .complete →
      exec (.jobWait c gd rd ra) s = .next (s.on ((m1.acceptJob p j).gives k rd (at_ 16 j.result ||| at_ 0 j.status))) ∧
      exec (.jobTest c gd rd ra pd) s =
        .next (s.on ((m1.acceptJob p j).completes k fun t => (t.gw rd (at_ 16 j.result ||| at_ 0 j.status)).pw pd true))) ∧
    (∀ p j, m1.jobOf k h = some (p, j) → j.state ≠ .complete →
      exec (.jobTest c gd rd ra pd) s = .next (s.on (m1.completes k fun t => t.pw pd false)) ∧
      ∃ m2 : Mach, exec (.jobWait c gd rd ra) s = .next (s.on m2) ∧ (m2.thr k).state = .waiting ∧ (m2.thr k).waitKind = .jobWait ∧
        (m2.thr k).waitOn = h ∧ (m2.thr k).waitRd = rd ∧ (m2.thr k).pc = (m1.thr k).pc ∧ (m2.core c).thr = none))

/-! ## Digests, measurement, comparison and audit (R77, R166 to R172, R446) -/

/-- DGS.OPEN of SHA-256 gives a context of the core's quadrant, opened for the thread's ring and slice; DGS.UPDATE feeds whole blocks;
DGS.FINISH leaves the core with its context and destination, and its thread becomes READY with the status that the context ends with;
DGS.RELEASE closes the context (R167 to R169). -/
def Obligations.DigestContexts : Prop :=
  (∀ (s : State) (k : Fin 4096) (m1 : Mach) (st : Nat), s.m.resting = false → (s.m.thr k).state = .waiting →
    (s.m.thr k).waitKind = .dgsFinish → s.m.readyHeld k = false → s.m.engOn = true →
    s.m.dgsFinish k (s.m.thr k).waitOn.toNat = some (m1, st) → (m1.thr k).stopPend = false →
    m1.entriesUsed + (m1.thr k).groups.length ≤ m1.sch.pool →
    ∃ m2 : Mach, exec (.dgsFinishDone k) s = .next (s.on m2) ∧ (m2.thr k).state = .ready ∧ (m2.thr k).wake = .value (w64 st) ∧
      m2.sch.ready = m1.sch.ready ++ [{ tcb := k, level := (m1.thr k).prio, stamp := m1.tb }] ∧ m2.mem = m1.mem ∧ m2.dgs = m1.dgs) ∧
  (∀ (s : State) (c : Fin 72) (gd : BitVec 4) (rd ra rb : BitVec 5) (k h : Nat) (m1 : Mach), s.m.begins c gd k m1 →
    (m1.core c).thr = some k → (m1.thr k).core = c →
    let t := m1.thr k
    let n := (t.gr rd).toNat
    let a := (t.gr rb).toNat
    (t.gr ra = 0 → (m1.ctxsUsed (quadOf c)).length < 16 → (m1.ledger 7).free ≠ 0 →
      ∃ (x : Nat) (m2 : Mach), exec (.dgsOpen c gd rd ra) s = .next (s.on (m2.gives k rd (w64 x))) ∧ 16 * quadOf c ≤ x ∧ m2.mem = m1.mem ∧
        m2.dctx x = { Dctx.reset with open_ := true, ring := t.ring, slice := t.slice, tcb := k, alg := .sha256 }) ∧
    (m1.ctxFor t (t.gr ra) = none → ∀ i, i ∈ [Instr.dgsUpdate c gd rd ra rb, .dgsFinish c gd rd ra rb, .dgsRelease c gd ra] →
      exec i s = .next (s.on (m1.exception k ((encode i).getD 0) 3 5 0))) ∧
    (m1.ctxFor t (t.gr ra) = some h →
      (n = 0 → exec (.dgsUpdate c gd rd ra rb) s = .next (s.on (m1.completes k id))) ∧
      (∀ m2 b, n ≠ 0 → m1.windowRange k .read a n = none → (m1.dctx h).cplOk = true → (m1.dctx h).err = 0 →
        n % (m1.dctx h).alg.block = 0 → m1.rangeBus false a n = none → m1.readBytes a n = (m2, .ok b) →
        exec (.dgsUpdate c gd rd ra rb) s = .next (s.on ((m2.setDctx h ((m2.dctx h).feed b)).completes k id))) ∧
      (m1.windowRange k .write a (m1.dctx h).alg.size = none →
        ∃ m2 : Mach, exec (.dgsFinish c gd rd ra rb) s = .next (s.on m2) ∧ (m2.thr k).state = .waiting ∧ (m2.thr k).waitKind = .dgsFinish ∧
          (m2.thr k).waitOn = w64 h ∧ (m2.thr k).waitAddr = a ∧ (m2.thr k).waitRd = rd ∧ (m2.thr k).pc = t.pc ∧ (m2.core c).thr = none) ∧
      (exec (.dgsRelease c gd ra) s = .next (s.on ((m1.closeCtx h).completes k id)) ∧ (m1.closeCtx h).dctx h = Dctx.reset)))

/-- MREG.EXTEND replaces a measurement register by the SHA-512 digest of its bytes and the 64 bytes read, in the rings that may; CMP.CT
sets pd when the two ranges are equal; LEDGER.AUDIT gives the flag mask of the requester's scope and sets pd when nothing is flagged (R77,
R170 to R172). -/
def Obligations.MeasureCompareAudit : Prop :=
  ∀ (s : State) (c : Fin 72) (gd : BitVec 4) (rd n ra rb : BitVec 5) (pd : BitVec 3) (size : BitVec 2) (k : Nat) (m1 : Mach),
    s.m.begins c gd k m1 →
    let t := m1.thr k
    let a := (t.gr ra).toNat
    let b := (t.gr rb).toNat
    let len := 16 * 2 ^ size.toNat
    let ext := Instr.mregExtend c gd n ra
    (t.ring = .r2 ∨ t.ring = .r1 ∧ n.toNat < 4 → exec ext s = .next (s.on (m1.exception k ((encode ext).getD 0) 2 2 0))) ∧
    (t.ring = .r0 ∨ t.ring = .r1 ∧ 4 ≤ n.toNat → a % 8 = 0 → ∀ m2 x, m1.loadRange c k a 64 = (m2, .ok x) →
      m2.dgs.mbad.contains n.toNat = false → m2.unsound (.measure n.toNat) = false →
      ∃ m3 : Mach, exec ext s = .next (s.on (m3.completes k id)) ∧ m3.mem = m2.mem ∧
        (∀ i, i ≠ n.toNat → tget 0 m3.dgs.mregs i = tget 0 m2.dgs.mregs i) ∧
        tget 0 m3.dgs.mregs n.toNat =
          BitVec.ofNat 512 (leNat (Alg.hash .sha512 (leBytes 64 (tget 0 m2.dgs.mregs n.toNat).toNat ++ x)))) ∧
    (size ≠ 3 → a % 8 = 0 → b % 8 = 0 → m1.windowRange k .read a len = none → m1.windowRange k .read b len = none →
      m1.rangeBus false a len = none → m1.rangeBus false b len = none →
      ∀ m2 m3 la lb, m1.loadRange c k a len = (m2, .ok la) → m2.loadRange c k b len = (m3, .ok lb) →
        exec (.cmpCt c gd pd size ra rb) s = .next (s.on (m3.completes k fun t => t.pw pd (decide (la = lb))))) ∧
    (let bad := m1.auditFlags (m1.who k)
     let mask := at_ 0 bad.1.toNat ||| flagAt 14 bad.2.2.isSome
     ∃ m2 : Mach, exec (.ledgerAudit c gd rd pd) s =
        .next (s.on (m2.completes k fun t => (t.gw rd mask).pw pd (decide (bad.1 = 0) && !bad.2.1 && bad.2.2.isNone))) ∧
       (bad.1 = 0 → bad.2.1 = false → bad.2.2 = none → m2 = { m1 with grn := m2.grn } ∧ m2.grn.audMask = m1.grn.audMask))

/-! ## The granary (R57 to R66, R73, R79) -/

/-- An allocation that R59 and R60 permit answers the address and handle of a free buffer, now owned by the requester, with zero bytes,
counted in its class, its ledger and its slice; a refused GRN_TRYALLOC answers its reason, a refused GRN_ALLOC holds its reader until it
is granted (R57 to R63, R65). GRN_FREE by the owner returns the buffer, zeroed, to the pool and to every count; by another requester, or
with a handle of no buffer, it is a granary fault that changes no buffer. GRN_GIVE puts the buffer in TRANSIT toward its target, and the
target's acceptance makes it the owner. GRN_RECOUNT by ring 0 makes the BUF ledger and the class counts agree with the buffer table (R64,
R72, R73, R79). -/
def Obligations.GranaryBuffers : Prop :=
  (∀ (s : State) (w : Who) (c : Fin 8) (r : Nat), s.m.resting = false → c.val < 6 → (w.ring = .r2 → c.val = 5) →
    (s.m.allocReason c w.charge = 0 →
      ∀ i, i ∈ [Instr.grnAlloc w c, .grnTryalloc w c] →
        ∃ (k : Nat) (m2 : Mach), exec i s = .next (s.on (m2.answer (.value (at_ 16 (bufAddr k) ||| at_ 0 (handleOf k))))) ∧
          s.m.granted m2 k c w.owner w.charge) ∧
    (s.m.allocReason c w.charge = r → r ≠ 0 →
      exec (.grnTryalloc w c) s = .next (s.on (s.m.answer (.value (flagAt 63 true ||| at_ 60 r)))) ∧
      ∃ m2 : Mach, exec (.grnAlloc w c) s = .next (s.on (m2.answer .held)) ∧
        m2 = { s.m with grn := { s.m.grn with held := s.m.grn.held ++ [{ who := w, cls := c, thread := false }] } }) ∧
    (∀ (n : Nat) (h : HeldAlloc), s.m.grn.held[n]? = some h → h.thread = false → s.m.allocReason h.cls h.who.charge = 0 →
      ∃ (k : Nat) (m2 : Mach), exec (.heldAllocationGrant n) s = .next (s.on (m2.answer (.value (at_ 16 (bufAddr k) ||| at_ 0 (handleOf k))))) ∧
        s.m.granted m2 k h.cls h.who.owner h.who.charge ∧ m2.grn.held = dropAt s.m.grn.held n)) ∧
  (∀ (s : State) (w : Who) (h : BitVec 14) (o k : Nat), s.m.resting = false → s.m.bufOf h.toNat = some k → o < 2 ^ 16 →
    let b := s.m.buf k
    (s.m.mayFree w k = true → b.cplOk = true → b.owner.extractLsb' 12 4 ≠ 0xB →
      (∃ m2 : Mach, exec (.grnFree w (w64 h.toNat)) s = .next (s.on (m2.answer .done)) ∧ m2.buf k = Buf.reset ∧
        (∀ j, j ≠ k → m2.buf j = s.m.buf j) ∧ (∀ i, i < 4096 → m2.byte (bufAddr k + i) = 0) ∧
        (m2.cls b.cls).held = (s.m.cls b.cls).held - 1 ∧ (m2.ledger 0).free = (s.m.ledger 0).free + 1 ∧
        (m2.ledger 0).held = (s.m.ledger 0).held - 1) ∧
      (giveTarget o = true →
        ∃ m2 : Mach, exec (.grnGive w (w64 (65536 * o + h.toNat))) s = .next (s.on (m2.answer .done)) ∧
          m2.buf k = { b with state := .transit } ∧ m2.grn.handoffs = s.m.grn.handoffs ++ [(k, BitVec.ofNat 16 o)] ∧ m2.mem = s.m.mem ∧
          (m2.ledger 0).held = (s.m.ledger 0).held - 1 ∧ (m2.ledger 0).transit = (s.m.ledger 0).transit + 1)) ∧
    (s.m.mayFree w k = false → b.cplOk = true →
      ∃ m2 : Mach, exec (.grnFree w (w64 h.toNat)) s = .next (s.on (m2.answer .done)) ∧ m2.grn.bufs = s.m.grn.bufs ∧ m2.mem = s.m.mem ∧
        m2.grn.faultCnt = sat (2 ^ 32 - 1) (s.m.grn.faultCnt + 1)) ∧
    (∀ dest, (s.m.grn.handoffs.find? fun x => x.1 == k) = some (k, dest) →
      ∃ m2 : Mach, exec (.bufferHandoffAccept h) s = .next (s.on m2) ∧ m2.buf k = { b with state := .owned, owner := dest } ∧ m2.mem = s.m.mem ∧
        (m2.ledger 0).held = (s.m.ledger 0).held + 1 ∧ (m2.ledger 0).transit = (s.m.ledger 0).transit - 1) ∧
    (w.ring = .r0 →
      ∃ m2 : Mach, exec (.grnRecount w 1) s = .next (s.on (m2.answer .done)) ∧ m2.grn.bufs = s.m.grn.bufs ∧
        (m2.ledger 0).held = s.m.countBufs (fun x => x.state == .owned) ∧ (m2.ledger 0).transit = s.m.countBufs (fun x => x.state == .transit) ∧
        (∀ c, c < 7 → (m2.cls c).held = s.m.countBufs fun x => x.cls == c) ∧ (m2.ledger 0).sealed = true) ∧
    (w.ring ≠ .r0 → exec (.grnRecount w 1) s = .next (s.on (s.m.answer (.denied 2)))))

/-! ## Threads and the scheduler (R174 to R200) -/

/-- SCH_TCB_ALLOC answers a block that becomes IDLE with its fields at reset, its ring the allocating ring's, or of the slice that
SCH_TCB_ALLOC_s names; with none left it answers reason 1. Writes to an IDLE block's registers set their fields, in the rings that may;
PRIO moves a READY thread to the tail of its new level (R177 to R180, R190). START and RESTART of a block whose conditions hold make its
thread READY at its entry with g1 the argument; STOP of a running thread is pending and of a READY one is at once; DELETE of a block with
no work gives it back; a command that the block's state does not admit leaves error 4 (R181 to R185). -/
def Obligations.ThreadBlocks : Prop :=
  (∀ (s : State) (w : Who) (sl : Fin 256) (k : Fin 4096) (v : W64), s.m.resting = false →
    ((s.m.ledger 4).sealed = true → w.low = true → s.m.tcbReason none = 0 →
      ∃ (j : Nat) (m2 : Mach), exec (.schTcbAlloc w) s = .next (s.on (m2.answer (.value (at_ 0 j)))) ∧
        m2.thr j = { Thr.reset with state := .idle, ring := w.ring } ∧ (∀ i, i ≠ j → m2.thr i = s.m.thr i) ∧ m2.mem = s.m.mem) ∧
    ((s.m.ledger 4).sealed = true → w.low = true → s.m.tcbReason (some sl.val) = 0 →
      ∃ (j : Nat) (m2 : Mach), exec (.schTcbAllocSlice w sl) s = .next (s.on (m2.answer (.value (at_ 0 j)))) ∧
        m2.thr j = { Thr.reset with state := .idle, ofSlice := true, slice := sl.val } ∧ (∀ i, i ≠ j → m2.thr i = s.m.thr i) ∧
        tget 0 m2.grn.tcbOf sl.val = tget 0 s.m.grn.tcbOf sl.val + 1) ∧
    (w.ring = .r2 → exec (.schTcbAlloc w) s = .next (s.on (s.m.answer (.denied 1))) ∧
      exec (.tcbFieldWrite w k 4 v) s = .next (s.on (s.m.answer (.denied 2)))) ∧
    (s.m.mayBlock w k = true → (s.m.thr k).state = .idle →
      let sets := fun (r : Fin 16) (x : W64) (f : Thr → Thr) => exec (.tcbFieldWrite w k r x) s = .next (s.on ((s.m.modThr k f).answer .done))
      sets 1 v (fun t => { t with mask := v }) ∧ sets 4 v (fun t => { t with arg := v }) ∧
      (∀ p : PcWord, sets 2 (w64 (pcAddr p)) (fun t => { t with entry := p }) ∧ sets 3 (w64 (pcAddr p)) (fun t => { t with handler := p }))) ∧
    (∀ p, p < 32 → s.m.mayBlock w k = true → (s.m.thr k).ofSlice = false → (s.m.thr k).state = .ready →
      ∃ m2 : Mach, exec (.tcbPrioWrite w k (at_ 40 p)) s = .next (s.on (m2.answer .done)) ∧ (m2.thr k).prio = p ∧ (m2.thr k).curPrio = p ∧
        m2.sch.ready = s.m.sch.ready.filter (fun r => r.tcb != k.val) ++ [{ tcb := k, level := p, stamp := s.m.tb }])) ∧
  (∀ (s : State) (w : Who) (k : Fin 4096) (i : ImgAt), s.m.resting = false → w.low = true → s.m.mayBlock w k = true → k.val < s.m.tcbTotal →
    (s.m.thr k).deleting = false → s.m.readyHeld k = false →
    let t := s.m.thr k
    let starts := fun (c : Instr) => ∃ m2 : Mach, exec c s = .next (s.on (m2.answer .done)) ∧ (m2.thr k).state = .ready ∧ (m2.thr k).err = 0 ∧
      (m2.thr k).pc = t.entry ∧ (m2.thr k).ring = i.ring ∧ (m2.thr k).ldc = i.ldc ∧ (m2.thr k).gr 1 = t.arg ∧ (m2.thr k).exc = false ∧
      m2.sch.ready = s.m.sch.ready ++ [{ tcb := k, level := t.prio, stamp := s.m.tb }] ∧ m2.mem = s.m.mem
    (s.m.startCode w k = 0 → s.m.imageAt (pcAddr t.entry) = some i → (∀ r ∈ s.m.sch.ready, r.tcb ≠ k.val) →
      s.m.entriesUsed + (t.started i).groups.length ≤ s.m.sch.pool →
      (t.state = .idle → starts (.start w k)) ∧ (t.state = .stopped → starts (.restart w k))) ∧
    (s.m.startCode w k ≠ 0 → t.state = .idle →
      exec (.start w k) s = .next (s.on ((s.m.modThr k fun t => { t with err := s.m.startCode w k }).answer .done))) ∧
    (t.state = .running → exec (.stop w k) s = .next (s.on ((s.m.setThr k { t with stopPend := true, err := 0 }).answer .done))) ∧
    (t.state = .ready →
      ∃ m2 : Mach, exec (.stop w k) s = .next (s.on (m2.answer .done)) ∧ (m2.thr k).state = .stopped ∧ (m2.thr k).g = t.g ∧
        m2.sch.ready = s.m.sch.ready.filter fun r => r.tcb != k.val) ∧
    (t.state = .free → ∀ c, c ∈ [Instr.start w k, .stop w k, .restart w k, .delete w k] →
      exec c s = .next (s.on ((s.m.modThr k fun t => { t with err := 4 }).answer .done))) ∧
    (t.state = .stopped → s.m.eng = [] →
      ∃ m2 : Mach, exec (.delete w k) s = .next (s.on (m2.answer .done)) ∧ (m2.thr k).state = .free ∧
        (∀ e, e < 1024 → (m2.evt e).bound = true → (m2.evt e).tcb ≠ k.val) ∧ m2.mem = s.m.mem))

/-- A core that asks takes the thread of the highest level that it admits, the earliest arrival first, and runs it; it asks on when there
is none. A block that disagrees with its complement stops with cause INTEGRITY and event 5. A sleeper whose time has come becomes READY. A
held raise is accepted once it can be (R155, R186 to R188, R191, R196, R597). -/
def Obligations.DispatchAndWaking : Prop :=
  ∀ (s : State) (c : Fin 72) (k : Nat), s.m.resting = false → s.m.hq.pstate < 3 →
    let v := s.m.core c
    (v.off = false → v.halted = false → v.thr = none →
      (s.m.choice c = none → exec (.coreAskWork c) s = .next (s.on (s.m.setCore c { v with asking := true }))) ∧
      (s.m.choice c = some k → s.m.unsound (.block k) = true →
        ∃ m2 : Mach, exec (.coreAskWork c) s = .next (s.on m2) ∧ (m2.core c).thr = none ∧ (m2.thr k).state = .stopped ∧
          (m2.thr k).xrec = at_ 8 5 ||| at_ 0 8 ∧ m2.pwr.alarmEvt.getLsbD 5 = true) ∧
      (s.m.choice c = some k → s.m.unsound (.block k) = false →
        ∃ m2 : Mach, exec (.coreAskWork c) s = .next (s.on m2) ∧ (m2.core c).thr = some k ∧ (m2.core c).asking = false ∧
          (m2.core c).since = s.m.tb ∧ (m2.thr k).state = .running ∧ (m2.thr k).core = c ∧ (m2.thr k).wake = .none ∧
          m2.sch.ready = s.m.sch.ready.filter (fun r => r.tcb != k) ∧
          ∃ pre q post, s.m.sch.ready = pre ++ q :: post ∧ q.tcb = k ∧ (s.m.thr k).admits c = true ∧
            (∀ r ∈ pre, r.level = q.level → (s.m.thr r.tcb).admits c = false) ∧
            (∀ r ∈ s.m.sch.ready, (s.m.thr r.tcb).admits c = true → q.level ≤ r.level))) ∧
    (∀ j : Fin 4096, let t := s.m.thr j
      t.state = .waiting → t.waitKind = .sleep → t.deadline ≤ s.m.tb → s.m.readyHeld j = false →
      s.m.entriesUsed + t.groups.length ≤ s.m.sch.pool →
      ∃ m2 : Mach, exec (.sleepWake j) s = .next (s.on m2) ∧ (m2.thr j).state = .ready ∧ (m2.thr j).wake = .slept ∧
        m2.sch.ready = s.m.sch.ready ++ [{ tcb := j, level := t.prio, stamp := s.m.tb }]) ∧
    (∀ n e, s.m.sch.held[n]? = some (.post e k) → ((s.m.evt e).bound && s.m.inWaitwork (s.m.evt e).tcb) = false → (s.m.evt e).pend < 65535 →
      ∃ m2 : Mach, exec (.heldRaiseAccept n) s = .next (s.on m2) ∧ (m2.evt e).pend = (s.m.evt e).pend + 1 ∧
        m2.sch.held = dropAt s.m.sch.held n ∧ m2.thr k = (s.m.thr k).unhold)

/-- SCH_EVT sets the binding of an event by ring 0, and not its count; a timer whose time comes raises event 864 + k once, and a write
arms it again; a write to an observation window opens a new one, and its end raises event 884 (R192, R193, R198, R199). -/
def Obligations.EventsTimersWindows : Prop :=
  ∀ (s : State) (w : Who) (e : Fin 1024) (k : Fin 16) (v : W64) (tcb : Nat), s.m.resting = false →
    (w.ring = .r0 → tcb < 4096 → tcb < s.m.tcbTotal → (s.m.thr tcb).state ≠ .free → (s.m.thr tcb).ofSlice = false →
      e.val < 800 ∨ 863 < e.val →
      exec (.schEvtWrite w e (flagAt 63 true ||| at_ 32 tcb)) s =
        .next (s.on ((s.m.setEvt e { bound := true, deleg := false, assigned := false, slice := 0, tcb := tcb, pend := (s.m.evt e).pend }).answer .done))) ∧
    (w.ring ≠ .r0 → (s.m.evt e).deleg = false → exec (.schEvtWrite w e v) s = .next (s.on (s.m.answer (.denied 2)))) ∧
    (w.low = true → s.m.tb < v.toNat → exec (.schTmrWrite w k v) s = .next (s.on ((s.m.setTmr k { cmp := v, armed := true }).answer .done))) ∧
    (s.m.tb < (s.m.tmr k).cmp.toNat ∨ (s.m.tmr k).armed = false → exec (.timerExpire k) s = .next s) ∧
    (let f := s.m.evt (864 + k)
     (s.m.tmr k).armed = true → (s.m.tmr k).cmp.toNat ≤ s.m.tb →
      (f.bound && s.m.inWaitwork f.tcb) = false → f.pend < 65535 →
      exec (.timerExpire k) s =
        .next (s.on ((s.m.setTmr k { s.m.tmr k with armed := false }).setEvt (864 + k) { f with pend := f.pend + 1 }))) ∧
    (w.low = true → ∀ isEnd : Bool,
      ∃ m2 : Mach, exec (.obsWindowWrite w isEnd v) s = .next (s.on (m2.answer .done)) ∧ m2.sch.obsOpen = true ∧ m2.sch.obsDone = false ∧
        (if isEnd then m2.sch.obsEnd = v ∧ m2.sch.obsStart = s.m.sch.obsStart else m2.sch.obsStart = v ∧ m2.sch.obsEnd = s.m.sch.obsEnd) ∧
        (∀ c, tget 0 m2.sch.busy c = 0)) ∧
    (s.m.sch.obsOpen = true → s.m.sch.obsEnd.toNat ≤ s.m.tb →
      ((s.m.evt 884).bound && s.m.inWaitwork (s.m.evt 884).tcb) = false → (s.m.evt 884).pend < 65535 →
      ∃ m2 : Mach, exec .obsWindowClose s = .next (s.on m2) ∧ m2.sch.obsDone = true ∧ m2.sch.obsOpen = false ∧
        (m2.evt 884).pend = (s.m.evt 884).pend + 1)

/-! ## Mailboxes and locks (R42, R201 to R213) -/

/-- A post of an address in the granary or DRAM to an empty mailbox by its sender fills it, opens its window and counts one pending; to a
full one it sets OVERRUN, and of any other value BADPTR, and nothing else. TAKE by the receiver empties it and answers the message, 0 when
it was empty. The window's end sets TIMEOUT (R202 to R205, R207). DBSET sets doorbells, each newly set unmasked bit counting one pending;
DBREAD answers and clears them; DBMASK sets the mask, and a set bit that it unmasks counts one; ring 0 binds any mailbox to a thread of
its receiver (R206, R207). -/
def Obligations.Mailboxes : Prop :=
  (∀ (s : State) (w : Who) (k : Fin 576) (v : W64), s.m.resting = false →
    let b := s.m.box k
    (b.snd.admits w = true → b.full = false → (granaryBase ≤ v.toNat ∧ v.toNat < 0x103000000 ∨ dramBase ≤ v.toNat ∧ v.toNat < 0x1800000000) →
      (b.bound && s.m.inWaitwork b.tcb) = false → b.pend < 65535 →
      exec (.mbxPost w k v) s = .next (s.on ((s.m.setBox k
        { b with msg := v, full := true, window := some (s.m.tb, s.m.tb + b.tmo), pend := b.pend + 1 }).answer .done))) ∧
    (b.snd.admits w = true → v.toNat < granaryBase →
      exec (.mbxPost w k v) s = .next (s.on ((s.m.setBox k { b with badptr := true }).answer .done))) ∧
    (b.snd.admits w = true → b.full = true → granaryBase ≤ v.toNat → v.toNat < 0x103000000 →
      exec (.mbxPost w k v) s = .next (s.on ((s.m.setBox k { b with overrun := true }).answer .done))) ∧
    (b.snd.admits w = false → exec (.mbxPost w k v) s = .next (s.on (s.m.answer (.denied 2)))) ∧
    (b.rcv.admits w = true → (∀ a e, b.window = some (a, e) → s.m.tb < e) →
      exec (.mbxTake w k) s = .next (s.on ((s.m.setBox k { b with msg := 0, full := false, window := none }).answer
        (.value (if b.full then b.msg else 0))))) ∧
    (b.rcv.admits w = false → exec (.mbxTake w k) s = .next (s.on (s.m.answer (.denied 1)))) ∧
    (∀ a e, b.window = some (a, e) → b.full = true → e ≤ s.m.tb →
      ∃ m2 : Mach, exec (.mbxTimeout k) s = .next (s.on m2) ∧ m2.box k = { b with timeout := true, window := none } ∧ m2.mem = s.m.mem)) ∧
  (∀ (s : State) (w : Who) (k : Fin 576) (v : W32), s.m.resting = false →
    let b := s.m.box k
    (b.snd.admits w = true → (b.bound && s.m.inWaitwork b.tcb) = false → b.pend + 32 ≤ 65535 →
      exec (.mbxDbset w k (v.setWidth 64)) s = .next (s.on ((s.m.setBox k { b with
        bells := b.bells ||| v
        pend := b.pend + (List.range 32).countP fun i => v.getLsbD i && !b.bells.getLsbD i && !b.dbmask.getLsbD i }).answer .done))) ∧
    (b.rcv.admits w = true →
      exec (.mbxDbread w k) s = .next (s.on ((s.m.setBox k { b with bells := 0 }).answer (.value (b.bells.setWidth 64))))) ∧
    (b.rcv.admits w = true → (b.bound && s.m.inWaitwork b.tcb) = false → b.pend + 32 ≤ 65535 →
      exec (.mbxDbmaskWrite w k (v.setWidth 64)) s = .next (s.on ((s.m.setBox k { b with
        dbmask := v
        pend := b.pend + (List.range 32).countP fun i => b.bells.getLsbD i && b.dbmask.getLsbD i && !v.getLsbD i }).answer .done))) ∧
    (∀ tcb, tcb < 4096 → w.ring = .r0 → k.val < 512 → (s.m.thr tcb).state ≠ .free → b.rcv.has (s.m.thr tcb) = true →
      exec (.mbxBindWrite w k (flagAt 63 true ||| at_ 40 tcb)) s =
        .next (s.on ((s.m.setBox k { b with bound := true, tcb := tcb }).answer .done))) ∧
    (b.snd.admits w = false → ∀ x, exec (.mbxDbset w k x) s = .next (s.on (s.m.answer (.denied 2)))))

/-- A read of a free lock takes it for the reader and answers 0; of an owned one it answers the owner with bit 63 set. The owner's write
of its identity frees it; any other write is counted and changes no lock. FORCE by rings 0 and 1 frees it, and an assignment of a free
lock opens it to a slice (R42, R209 to R212). -/
def Obligations.Locks : Prop :=
  ∀ (s : State) (w : Who) (n : Fin 256) (v : W64) (sl : Nat), s.m.resting = false → sl < 256 →
    let l := s.m.lock n
    (l.opens w = true → l.owner = 0 → exec (.lockRead w n) s = .next (s.on ((s.m.setLock n { l with owner := w.ident }).answer (.value 0)))) ∧
    (l.opens w = true → l.owner ≠ 0 → exec (.lockRead w n) s = .next (s.on (s.m.answer (.value (l.owner ||| flagAt 63 true))))) ∧
    (l.opens w = true → l.owner = w.ident →
      exec (.lockWrite w n w.ident) s = .next (s.on ((s.m.setLock n { l with owner := 0 }).answer .done))) ∧
    (l.opens w = true → l.owner ≠ w.ident ∨ v ≠ l.owner →
      ∃ m2 : Mach, exec (.lockWrite w n v) s = .next (s.on (m2.answer .done)) ∧ m2.mbx.locks = s.m.mbx.locks ∧
        m2.mbx.lockFault = sat (2 ^ 32 - 1) (s.m.mbx.lockFault + 1)) ∧
    (l.opens w = false → exec (.lockRead w n) s = .next (s.on (s.m.answer (.denied 1))) ∧
      exec (.lockWrite w n v) s = .next (s.on (s.m.answer (.denied 2)))) ∧
    (w.low = true →
      exec (.lockForce w n (flagAt 63 l.assigned ||| at_ 48 l.slice)) s = exec (.mbxLockcfgWrite w n (flagAt 63 l.assigned ||| flagAt 62 true ||| at_ 48 l.slice)) s ∧
      (l.slice < 256 → ∃ m2 : Mach, exec (.lockForce w n (flagAt 63 l.assigned ||| at_ 48 l.slice)) s = .next (s.on (m2.answer .done)) ∧
        m2.lock n = { l with owner := 0 } ∧ (∀ j, j ≠ n.val → m2.lock j = s.m.lock j)) ∧
      (l.owner = 0 → exec (.mbxLockcfgWrite w n (flagAt 63 true ||| at_ 48 sl)) s =
        .next (s.on ((s.m.setLock n { l with assigned := true, slice := sl }).answer .done)))) ∧
    (w.ring = .r2 → exec (.mbxLockcfgWrite w n v) s = .next (s.on (s.m.answer (.denied 2))))

/-! ## Supply, temperature, resets and alarms (R26 to R29, R35, R478, R586 to R601) -/

/-- A sample of VIN above the reset threshold sets the warning and the inhibit with their hysteresis of 50 mV; a fall below the inhibit
opens a hold window, counts it and raises event 17, a recovery closes it and raises event 18, a fall below the warning raises event 16; a
window whose 1,000,000 ticks have passed closes with event 19. Below the reset threshold the module resets (R587 to R591). The throttle
band follows the hottest sensor with its hysteresis, with event 26 on a change; the winnow band likewise with event 643. At 112 °C the
hold rules apply with event 27, below 109 °C they end. VCORE_REQ takes its level by ring 0 and settles later (R26, R478, R595, R596). -/
def Obligations.SupplyAndTemperature : Prop :=
  (∀ (s : State) (mv : Nat), s.m.resting = false → s.m.pwr.holdOver s.m.tb = false →
    let p := s.m.pwr
    let warn := if p.warn then decide (mv < p.thrWarn + 50) else decide (mv < p.thrWarn)
    let inh := if p.inhibit then decide (mv < p.thrInh + 50) else decide (mv < p.thrInh)
    (∀ i, i ∈ [Instr.vinWarning mv, .vinInhibit mv, .vinRecover mv, .vinReset mv] →
      (mv < 2450 → exec i s = .next (s.on { s.m.cold with pwr := { s.m.cold.pwr with noVin := true, railLast := 0 } })) ∧
      (2450 ≤ mv → inh = true ∨ s.m.fwa.suspSag = false ∧ s.m.fwa.heldCmd = none ∧ s.m.fwa.heldFuse = [] ∧ s.m.dgs.held = [] →
        ∃ m2 : Mach, exec i s = .next (s.on m2) ∧ m2.pwr.vinMv = sat 65535 mv ∧ m2.pwr.warn = warn ∧ m2.pwr.inhibit = inh ∧
          (warn = true → p.warn = false → m2.pwr.alarmEvt.getLsbD 16 = true) ∧
          (inh = true → p.inhibit = false → m2.pwr.holdOpen = true ∧ m2.pwr.holdStart = s.m.tb ∧ m2.pwr.windows = up16 p.windows ∧
            m2.pwr.alarmEvt.getLsbD 17 = true) ∧
          (inh = false → m2.pwr.holdOpen = false ∧ (p.inhibit = true → m2.pwr.alarmEvt.getLsbD 18 = true)))) ∧
    exec .holdWindowExpire s = .next s ∧
    (∀ s2 : State, s2.m.resting = false → s2.m.pwr.holdOver s2.m.tb = true → s2.m.hq.cmds = [] → s2.m.hq.entry = none →
      s2.m.map.work = [] → s2.m.fch.dies = [] → s2.m.slc.busy = false → s2.m.dgs.held = [] → s2.m.fwa.suspSag = false →
      s2.m.fwa.heldCmd = none →
      ∃ m2 : Mach, exec .holdWindowExpire s2 = .next (s2.on m2) ∧ m2.pwr.holdOpen = false ∧ m2.pwr.expired = up16 s2.m.pwr.expired ∧
        m2.pwr.alarmEvt.getLsbD 19 = true)) ∧
  (∀ (s : State) (t : W32) (w : Who) (lv : Nat), s.m.resting = false →
    let h := hottest t
    let p := s.m.pwr
    (∃ m2 : Mach, exec (.thermalBandChange t) s = .next (s.on m2) ∧ m2.pwr.tempQ = t ∧
      (108 ≤ h → m2.pwr.throt = 3) ∧ (105 ≤ h → h < 108 → m2.pwr.throt = if p.throt = 3 then 3 else 2) ∧
      (103 ≤ h → h < 105 → m2.pwr.throt = 2) ∧ (100 ≤ h → h < 103 → m2.pwr.throt = if 2 ≤ p.throt then 2 else 1) ∧
      (95 ≤ h → h < 100 → m2.pwr.throt = 1) ∧ (92 ≤ h → h < 95 → m2.pwr.throt = if 1 ≤ p.throt then 1 else 0) ∧
      (h < 92 → m2.pwr.throt = 0) ∧ (m2.pwr.throt ≠ p.throt → m2.pwr.alarmEvt.getLsbD 26 = true)) ∧
    (∃ m2 : Mach, exec (.winnowBandChange t) s = .next (s.on m2) ∧ m2.pwr.tempQ = t ∧ m2.wnw = { s.m.wnw with band := m2.wnw.band } ∧
      (100 ≤ h → m2.wnw.band = 2) ∧ (97 ≤ h → h < 100 → m2.wnw.band = if s.m.wnw.band = 2 then 2 else 1) ∧ (90 ≤ h → h < 97 → m2.wnw.band = 1) ∧
      (87 ≤ h → h < 90 → m2.wnw.band = if 1 ≤ s.m.wnw.band then 1 else 0) ∧ (h < 87 → m2.wnw.band = 0)) ∧
    (112 ≤ h → p.hotHold = false → p.holdOver s.m.tb = false →
      ∃ m2 : Mach, exec (.overtempHold t) s = .next (s.on m2) ∧ m2.pwr.hotHold = true ∧ m2.pwr.alarmEvt.getLsbD 27 = true ∧ m2.inhibited = true) ∧
    (h < 109 → p.hotHold = true → p.holdOver s.m.tb = false →
      p.inhibit = true ∨ s.m.fwa.suspSag = false ∧ s.m.fwa.heldCmd = none ∧ s.m.fwa.heldFuse = [] ∧ s.m.dgs.held = [] →
      ∃ m2 : Mach, exec (.overtempRelease t) s = .next (s.on m2) ∧ m2.pwr.hotHold = false ∧ m2.inhibited = p.inhibit) ∧
    (w.ring = .r0 → lv < 4 →
      ∃ m2 : Mach, exec (.pwrVcoreReqWrite w (w64 lv)) s = .next (s.on (m2.answer .done)) ∧ m2.pwr.req = lv ∧
        m2.pwr.settling = (p.settling || decide (Nat.max p.throt lv ≠ Nat.max p.throt p.req)) ∧ m2.mem = s.m.mem) ∧
    (w.ring ≠ .r0 → exec (.pwrVcoreReqWrite w (w64 lv)) s = .next (s.on (s.m.answer (.denied 2)))) ∧
    exec .vcoreSettled s = .next (s.on { s.m with pwr := { p with settling := false } }))

/-- What resets the module, and what does not: 120 °C holds it in reset until every sensor is below 100 °C; a rail outside its band for
100 µs resets it and its number stands in PWR_RAIL_LAST, a rail outside 5 % is only recorded; nRESET held low holds it; it boots when VIN
is valid and nothing holds it. A reset keeps the array, the time base starts at zero (R32, R584, R586, R591, R596, R611, R625). -/
def Obligations.Resets : Prop :=
  ∀ (s : State) (t : W32) (n : Fin 8) (mv : Nat) (bad : List (Fin 8 × Fin 256)),
    let held := s.m.pwr.hotReset || s.m.pwr.noVin || s.m.lands.nresetLow
    s.m.cold.tb = 0 ∧ s.m.cold.sch = Sch.reset ∧ s.m.cold.hq = Hq.reset ∧ s.m.cold.dgs.store = s.m.dgs.store ∧
    s.m.cold.booted = false ∧ (∀ k, s.m.cold.mregWord k 0 = 0) ∧
    (held = false →
      (120 ≤ hottest t → exec (.overtempReset t) s = .next (s.on { s.m.cold with pwr := { s.m.cold.pwr with hotReset := true } })) ∧
      (hottest t < 120 → exec (.overtempReset t) s = .next s) ∧
      exec (.railReset n) s = .next (s.on { s.m.cold with pwr := { s.m.cold.pwr with railLast := n.val + 1 } }) ∧
      (∃ m2 : Mach, exec (.railFault n) s = .next (s.on m2) ∧ m2.pwr.railFlt.getLsbD n = true ∧ m2.pwr.railsGood = false ∧
        m2.pwr.alarmEvt.getLsbD 25 = true ∧ m2.mem = s.m.mem)) ∧
    (s.m.pwr.hotReset = true →
      exec (.overtempRelease t) s = .next (s.on { s.m with pwr := { s.m.pwr with hotReset := decide (100 ≤ hottest t) } })) ∧
    (∃ m2 : Mach, exec (.nreset true) s = .next (s.on m2) ∧ m2.lands = { s.m.lands with nresetLow := true } ∧ m2.mem = s.m.cold.mem ∧
      m2.sch = Sch.reset ∧ m2.resting = true) ∧
    exec (.nreset false) s = .next (s.on { s.m with lands := { s.m.lands with nresetLow := false } }) ∧
    ((s.m.lands.nresetLow || s.m.pwr.hotReset || s.m.booted) = true ∨ mv < 2700 → exec (.moduleReset mv bad) s = .next s) ∧
    (s.m.lands.nresetLow = false → s.m.pwr.hotReset = false → s.m.booted = false → 2700 ≤ mv → s.m.hq.cmds = [] → s.m.hq.qps = [] →
      ∃ m2 : Mach, exec (.moduleReset mv bad) s = .next (s.on m2) ∧ m2.booted = true ∧ m2.pwr.noVin = false)

/-- A hardware source's event: below 32 its bit in PWR_ALARM_EVT is set, with a NOTE 0x0001 when an unmasked bit newly sets; a thread that
waits for it in WAITWORK becomes READY with its number, else it is counted; frozen, it stays asserted (R193, R194, R600, R607). An
integrity alarm keeps the first location. Rings 0 and 1 clear bits, ring 0 lifts a STOP; the loss of the resonator is told (R35, R598 to
R600). -/
def Obligations.EventsAndAlarms : Prop :=
  (∀ (m : Mach) (e : Nat), 32 ≤ e → m.dbg.frozen = false →
    ((m.evt e).bound = true → m.inWaitwork (m.evt e).tcb = true →
      m.entriesUsed + (m.thr (m.evt e).tcb).groups.length ≤ m.sch.pool →
      ((m.raise e).thr (m.evt e).tcb).state = .ready ∧ ((m.raise e).thr (m.evt e).tcb).wake = .event e ∧
      ((m.raise e).evt e).pend = (m.evt e).pend) ∧
    (((m.evt e).bound && m.inWaitwork (m.evt e).tcb) = false → (m.evt e).pend < 65535 →
      m.raise e = m.setEvt e { m.evt e with pend := (m.evt e).pend + 1 })) ∧
  (∀ (m : Mach) (e : Nat), m.dbg.frozen = true → 32 ≤ e → m.raise e = { m with dbg := { m.dbg with asserted := m.dbg.asserted ++ [e] } }) ∧
  (∀ (m : Mach) (e : Nat), e < 32 → (m.raise e).pwr.alarmEvt = m.pwr.alarmEvt ||| BitVec.ofNat 32 (2 ^ e) ∧ (m.raise e).mem = m.mem ∧
    (m.pwr.alarmEvt.getLsbD e = false → m.pwr.alertMask.getLsbD e = false → (m.raise e).lnk.out = (m.note 1 e).lnk.out) ∧
    (m.pwr.alarmEvt.getLsbD e = true ∨ m.pwr.alertMask.getLsbD e = true → (m.raise e).lnk = m.lnk)) ∧
  (∀ (m : Mach) (cls loc : Nat), cls < 16 → m.pwr.firstValid = false → loc < 2 ^ 40 →
    (m.alarm cls loc).pwr.firstValid = true ∧ (m.alarm cls loc).pwr.firstCls = cls ∧ (m.alarm cls loc).pwr.firstLoc.toNat = loc ∧
    (cls = 0 ∨ cls = 6 → (m.alarm cls loc).pwr.stop = true)) ∧
  (∀ (s : State) (w : Who) (v : W32), s.m.resting = false →
    (w.low = true → exec (.pwrAlarmEvtClear w (v.setWidth 64)) s =
      .next (s.on ({ s.m with pwr := { s.m.pwr with alarmEvt := s.m.pwr.alarmEvt &&& ~~~v } }.answer .done))) ∧
    (w.ring = .r2 → exec (.pwrAlarmEvtClear w (v.setWidth 64)) s = .next (s.on (s.m.answer (.denied 2)))) ∧
    (w.ring = .r0 → s.m.pwr.stop = true →
      exec (.alarmResume w) s = .next (s.on ({ s.m with pwr := { s.m.pwr with stop := false } }.answer .done))) ∧
    (w.ring ≠ .r0 → exec (.alarmResume w) s = .next (s.on (s.m.answer (.denied 2)))) ∧
    (s.m.refLost = false → s.m.lnk.state = .active →
      ∃ m2 : Mach, exec .resonatorLoss s = .next (s.on m2) ∧ m2.refLost = true ∧ m2.pwr.alarmEvt.getLsbD 24 = true ∧
        m2.lnk.lctl = s.m.lnk.lctl ++ [at_ 0 5]))

/-! ## Host commands: intake, queues and service (R255 to R289) -/

/-- A held command goes into its enabled queue pair's submission queue, waits while the queue is full or the module not ready, and is
answered INVALID-FIELD on queue pair 0 where its queue pair is not enabled; the fetched head of a queue takes a number and is answered, or
waits to start, or calls its data; data that is there, and complete, makes it ready; a notice follows 3.5 ms of silence (R257, R258, R261,
R262, R264, R268, R270, R277). -/
def Obligations.HostIntake : Prop :=
  ∀ (s : State) (q : Fin 512) (tag : Fin 65536) (e : SqEnt) (rest : List SqEnt), s.m.resting = false → s.m.pwr.mism = [] →
    let v := s.m.qp q
    let owner := if q.val = 0 then none else some v.slice
    (s.m.hq.held = [{ qp := q, ent := e }] →
      (s.m.hq.ready = false → exec .heldCmdPlace s = .next s) ∧
      (s.m.hq.ready = true → v.enable = true → v.size ≤ v.outst → exec .heldCmdPlace s = .next s) ∧
      (s.m.hq.ready = true → v.enable = true → v.outst < v.size →
        ∃ m2 : Mach, exec .heldCmdPlace s = .next (s.on m2) ∧
          m2.hq = { s.m.hq with held := [], qps := tset s.m.hq.qps q { v with sq := v.sq ++ [e], outst := v.outst + 1 } }) ∧
      (s.m.hq.ready = true → v.enable = false → s.m.rsvdUsed < 64 →
        ∃ (m2 : Mach) (x : Cqe), exec .heldCmdPlace s = .next (s.on m2) ∧ m2.hq.held = [] ∧ m2.hq.cqes = s.m.hq.cqes ++ [x] ∧ x.qp = 0 ∧
          x.asn = s.m.hq.asn ∧ x.status = 0x0101 ∧ x.cid = e.cid ∧ x.qid = q ∧ x.result = 64 ∧
          m2.hq.asn = (s.m.hq.asn + 1) % 2 ^ 32)) ∧
    (s.m.hq.ready = true → v.enable = true → v.inReset = false → v.sq = e :: rest → s.m.tagsInUse.length < 65536 → s.m.hq.cmds = [] →
      s.m.hq.aborts = [] →
      (∀ st rs, e.reserve = 0 → s.m.checkCmd q owner e = some (st, rs) →
        ∃ (m2 : Mach) (x : Cqe), exec (.commandAccept q) s = .next (s.on m2) ∧ m2.hq.cmds = [] ∧ m2.hq.cqes = s.m.hq.cqes ++ [x] ∧
          x.asn = s.m.hq.asn ∧ x.status = st ∧ (st = 0x0101 → x.result = rs) ∧ x.cid = e.cid ∧ x.qp = q ∧ (m2.qp q).sq = rest ∧
          m2.hq.asn = (s.m.hq.asn + 1) % 2 ^ 32) ∧
      (e.reserve = 0 → s.m.checkCmd q owner e = none → ranged e.opc = false → e.dataIn = false → e.opc ≠ 0xA → e.opc ≠ 0xE →
        ∃ (m2 : Mach) (t : Nat) (c : Cmd), exec (.commandAccept q) s = .next (s.on m2) ∧ m2.hq.cmds = [(t, c)] ∧ c.ent = e ∧ c.qp = q ∧
          c.asn = s.m.hq.asn ∧ c.owner = owner ∧ c.phase = .waiting ∧ c.started = false ∧ (m2.qp q).sq = rest ∧
          m2.hq.cqes = s.m.hq.cqes) ∧
      (∀ sl bufs m1, e.opc = 3 → owner = some sl → e.reserve ≤ (s.m.slq sl).quota → s.m.hq.orphans = [] →
        s.m.allocMany 1 (BitVec.ofNat 16 (0x4000 + q)) owner e.reserve = some (bufs, m1) → m1.checkCmd q owner e = none →
        (s.m.ledger 3).free ≠ 0 → tget 0 s.m.map.nslim (nsKey sl e.nsid) = 0 →
        ∃ (m2 : Mach) (t : Nat) (c : Cmd), exec (.commandAccept q) s = .next (s.on m2) ∧ m2.hq.cmds = [(t, c)] ∧ c.ent = e ∧
          c.asn = s.m.hq.asn ∧ c.phase = .dataIn ∧ c.bufs = bufs ∧
          c.drds.map (·.off) = (List.range (ceilDiv e.dlen 4096)).map (4096 * ·) ∧
          m2.hq.ovls = s.m.hq.ovls ++ [{ tag := t, asn := c.asn, kind := .write, slice := sl, nsid := e.nsid, lo := e.lba,
                                         hi := e.lba + e.nblk }])) ∧
    (∀ c, s.m.cmd? tag = some c → c.phase = .dataIn → ceilDiv c.ent.calls.1 4096 ≤ c.drds.length → (∀ d ∈ c.drds, d.done = true) →
      (c.irregular = none → exec (.dataInComplete tag) s = .next (s.on (s.m.setCmd tag { c with phase := .dataReady }))) ∧
      (∀ st rs flt, c.irregular = some (st, rs, flt) → s.m.hq.cmds = [(tag.val, c)] → s.m.hq.aborts = [] → c.lostDwr = false →
        ∃ m2 : Mach, exec (.dataInComplete tag) s = .next (s.on m2) ∧ s.m.ended m2 tag c st rs ∧
          (flt = true → m2.hq.errFlt = sat 65535 (s.m.hq.errFlt + 1) ∧ m2.hq.errLen = s.m.hq.errLen) ∧
          (flt = false → m2.hq.errLen = sat 65535 (s.m.hq.errLen + 1) ∧ m2.hq.errFlt = s.m.hq.errFlt))) ∧
    (∀ c, s.m.cmd? tag = some c →
      (c.noticeUp = true ∨ s.m.tb < c.resp + 350000 → exec (.noticePost tag) s = .next s) ∧
      (c.noticeUp = false → c.resp + 350000 ≤ s.m.tb →
        ∃ (m2 : Mach) (x : Cqe), exec (.noticePost tag) s = .next (s.on m2) ∧
          m2.cmd? tag = some { c with notices := c.notices + 1, noticeUp := true, resp := s.m.tb } ∧ m2.hq.cqes = s.m.hq.cqes ++ [x] ∧
          x.status = 0x0600 ∧ x.notice = true ∧ x.cid = c.ent.cid ∧ x.result = (c.notices + 1) % 65536 ∧ m2.mem = s.m.mem))

/-- HQ_CTL by rings 0 and 1: RESET-QP begins the reset of its queue pair, whose waiting entries are accepted and end with ABORTED-RESET;
RESET-ALL that of every queue pair; a reset ends, with event 66, when no command of them is outstanding. READY by ring 0 opens the queues.
HQ_QP_q_CFG enables a queue pair with its buffers, or records that they could not be had, and disables it (R255, R256, R280, R288, R289).
-/
def Obligations.HostQueueControl : Prop :=
  ∀ (s : State) (w : Who) (q : Fin 512) (sl d : Nat), s.m.resting = false →
    let v := s.m.qp q
    (w.low = true →
      ((∀ x ∈ s.m.hq.cmds, x.2.qp ≠ q) → v.sq = [] →
        exec (.resetQp w q) s = .next (s.on ((Mach.setQp { s.m with hq := { s.m.hq with inReset := true } } q
          { v with sq := [], inReset := true }).answer .done))) ∧
      (s.m.hq.cmds = [] → s.m.hq.aborts = [] →
        ∃ (m2 : Mach) (xs : List Cqe), exec (.resetQp w q) s = .next (s.on (m2.answer .done)) ∧ m2.hq.cqes = s.m.hq.cqes ++ xs ∧
          xs.map (·.cid) = v.sq.map (·.cid) ∧ (∀ x ∈ xs, x.status = 0x0200 ∧ x.qp = q) ∧ (m2.qp q).sq = [] ∧ (m2.qp q).inReset = true ∧
          m2.hq.inReset = true ∧ m2.hq.cmds = []) ∧
      (s.m.hq.cmds = [] → (∀ x ∈ s.m.hq.qps, x.2.sq = []) →
        ∃ m2 : Mach, exec (.resetAll w) s = .next (s.on (m2.answer .done)) ∧ m2.hq.inReset = true ∧ m2.hq.cqes = s.m.hq.cqes ∧
          (∀ x ∈ s.m.hq.qps, (m2.qp x.1).inReset = true) ∧ m2.mem = s.m.mem)) ∧
    (w.ring = .r2 → exec (.resetQp w q) s = .next (s.on (s.m.answer (.denied 2))) ∧
      exec (.resetAll w) s = .next (s.on (s.m.answer (.denied 2))) ∧ exec (.hqReady w) s = .next (s.on (s.m.answer (.denied 2)))) ∧
    ((∃ x ∈ s.m.hq.cmds, (s.m.qp x.2.qp).inReset = true) ∨ s.m.hq.inReset = false → exec .queueResetEnd s = .next s) ∧
    (s.m.hq.inReset = true → (∀ x ∈ s.m.hq.cmds, (s.m.qp x.2.qp).inReset = false) →
      ∃ m2 : Mach, exec .queueResetEnd s = .next (s.on m2) ∧ m2.hq.inReset = false ∧
        (∀ j, m2.qp j = { s.m.qp j with inReset := false }) ∧ s.m.counted m2 66) ∧
    (w.ring = .r0 → s.m.hq.held = [] →
      ∃ m2 : Mach, exec (.hqReady w) s = .next (s.on (m2.answer .done)) ∧ m2.hq = { s.m.hq with ready := true }) ∧
    (w.ring = .r1 →
      ∃ m2 : Mach, exec (.hqReady w) s = .next (s.on (m2.answer .done)) ∧ m2.hq = s.m.hq ∧ m2.sys.rsvCount = sat 65535 (s.m.sys.rsvCount + 1)) ∧
    (w.ring = .r0 → sl < 256 → 1 ≤ d → d ≤ 12 → v.enable = false → s.m.hq.held = [] → (q.val = 0 → sl = 0) →
      (q.val ≠ 0 → (s.m.slice sl).state = .live ∧ (s.m.slice sl).desc.qpfirst ≤ q ∧ q < (s.m.slice sl).desc.qpfirst + (s.m.slice sl).desc.qpcnt) →
      let takes := s.m.allocMany 0 (BitVec.ofNat 16 (0x4000 + q)) (if q.val = 0 then none else some sl) (qpBufs q d)
      let on := exec (.qpCfgWrite w q (flagAt 63 true ||| at_ 48 sl ||| at_ 0 d)) s
      (∀ l m1, takes = some (l, m1) →
        ∃ m2 : Mach, on = .next (s.on (m2.answer .done)) ∧
          m2.qp q = { Qp.reset with enable := true, slice := sl, depth := d, bufs := l, inReset := v.inReset }) ∧
      (takes = none →
        ∃ m2 : Mach, on = .next (s.on (m2.answer .done)) ∧ m2.qp q = { v with slice := sl, depth := d, err := 1 } ∧ s.m.counted m2 73)) ∧
    (w.ring = .r0 → v.enable = true → v.outst = 0 → v.slice < 256 → v.depth < 16 →
      ∃ m2 : Mach, exec (.qpCfgWrite w q (at_ 48 v.slice ||| at_ 0 v.depth)) s = .next (s.on (m2.answer .done)) ∧
        m2.qp q = { v with enable := false, bufs := [] }) ∧
    (w.ring = .r2 ∨ (w.ring = .r1 ∧ q.val = 0) → ∀ x, exec (.qpCfgWrite w q x) s = .next (s.on (s.m.answer (.denied 2))))

/-- The commands that the host-queue block serves itself, each as the only one outstanding: IDENTIFY sends its 4,096 bytes; GET-LOG sends
what it reads of its log and counts it; ABORT ends a waiting entry and counts it; SET-POWER ends at once, changes to a shallower state, or
begins an entry, which a closed quiet window, 100 ms or the prepared state carries on (R264, R266, R279, R283, R284). -/
def Obligations.HostService : Prop :=
  ∀ (s : State) (tag : Fin 65536) (c : Cmd), s.m.resting = false →
    (s.m.sole tag c 0x01 →
      ∃ (m2 : Mach) (d x : Pkt), exec (.identify tag) s = .next (s.on m2) ∧ s.m.ended m2 tag c 0 0 ∧
        tget [] m2.lnk.out 0 = tget [] s.m.lnk.out 0 ++ [d, x] ∧ d.ptype = 3 ∧ d.word1 = w64 c.ent.haddr ∧ d.data.length = 4096 ∧
        leAt d.data 0 8 = 0x4B9600A1 ∧ leAt d.data 8 8 = s.m.sys.grade.toNat ∧ leAt d.data 16 4 = 0x1B96A0F3 ∧ x.ptype = 2) ∧
    (s.m.sole tag c 0x0B →
      let log := fld (c.ent.param 0) 7 0
      let l := ((s.m.logBytes c.owner log).drop (c.ent.param 1).toNat).take c.ent.dlen
      log < 0x20 ∨ 0x30 ≤ log →
      ∃ (m2 : Mach) (ds : List Pkt) (x : Pkt), exec (.getLog tag) s = .next (s.on m2) ∧ s.m.ended m2 tag c 0 l.length ∧
        tget [] m2.lnk.out 0 = tget [] s.m.lnk.out 0 ++ ds ++ [x] ∧ ds.flatMap (·.data) = l) ∧
    (s.m.sole tag c 0x0F → c.started = false →
      let cid := fld (c.ent.param 0) 15 0
      let t := fld (c.ent.param 0) 24 16
      (s.m.abortMay c.owner t = false → ∃ m2 : Mach, exec (.abort tag) s = .next (s.on m2) ∧ s.m.endedOpen m2 tag c 0x0105) ∧
      (s.m.abortMay c.owner t = true → (∀ e ∈ (s.m.qp t).sq, e.cid ≠ cid) →
        ∃ m2 : Mach, exec (.abort tag) s = .next (s.on m2) ∧ s.m.ended m2 tag c 0 0) ∧
      (∀ e, s.m.abortMay c.owner t = true → (s.m.qp t).sq = [e] → e.cid = cid →
        ∃ (m2 : Mach) (x y : Cqe), exec (.abort tag) s = .next (s.on m2) ∧ m2.hq.cmds = [] ∧ m2.hq.cqes = s.m.hq.cqes ++ [x, y] ∧
          x.status = 0x0201 ∧ x.cid = cid ∧ x.qp = t ∧ y.status = 0 ∧ y.result = 1 ∧ y.cid = c.ent.cid ∧ y.tag = some tag.val)) ∧
    (s.m.sole tag c 0x0A → c.started = false →
      let target := fld (c.ent.param 0) 2 0
      (target = c.count → ∃ m2 : Mach, exec (.setPower tag) s = .next (s.on m2) ∧ s.m.ended m2 tag c 0 target) ∧
      (target < c.count →
        ∃ m2 : Mach, exec (.setPower tag) s = .next (s.on m2) ∧ s.m.ended m2 tag c 0 target ∧ m2.hq.pstate = target) ∧
      (c.count < target →
        ∃ m2 : Mach, exec (.setPower tag) s = .next (s.on m2) ∧ m2.hq.cmds = [(tag.val, { c with started := true, phase := .running })] ∧
          m2.hq.entry = some { tag := tag, target := target, at_ := c.at_, quiet := some (Nat.max c.at_ s.m.hq.lastDone), closed := false } ∧
          m2.hq.pstate = s.m.hq.pstate)) ∧
    (∀ e, s.m.hq.entry = some e →
      (e.shut s.m.tb = false → exec .powerQuietWindowClose s = .next s) ∧
      (e.shut s.m.tb = true → exec .powerQuietWindowClose s =
        .next (s.on { s.m with hq := { s.m.hq with entry := some { e with closed := true } } })) ∧
      (s.m.tb < e.at_ + 10000000 → exec .powerEntryAbandon s = .next s) ∧
      ((e.closed && s.m.prepared e.target) = false → exec .powerStatePrepared s = .next s) ∧
      (s.m.hq.cmds = [(e.tag, c)] → s.m.hq.aborts = [] → c.lostDwr = false →
        (e.shut s.m.tb = false → e.at_ + 10000000 ≤ s.m.tb →
          ∃ m2 : Mach, exec .powerEntryAbandon s = .next (s.on m2) ∧ s.m.endedOpen m2 e.tag c 0x0500 ∧ m2.hq.entry = none ∧ s.m.counted m2 68) ∧
        (e.closed = true → s.m.prepared e.target = true →
          ∃ m2 : Mach, exec .powerStatePrepared s = .next (s.on m2) ∧ s.m.ended m2 e.tag c 0 e.target ∧ m2.hq.entry = none ∧
            m2.hq.pstate = e.target ∧ s.m.counted m2 67)))

/-- READ sends the blocks that the media and earlier writes hold, and ends; FLUSH ends once every record is durable; TRIM of a whole grain
makes its entry ZERO with a ZERO record; WRITE of a whole grain (or fine block) forms it, lands it with the next LSN, and changes no entry
yet. A unit's self-check that fails ends a READ that decrypts, and a WRITE, which then changes no entry (R265, R269, R271, R275, R314,
R315, R318, R320, R333, R342, R417, R432). -/
def Obligations.HostMedia : Prop :=
  ∀ (s : State) (tag : Fin 65536) (c : Cmd) (sl : Nat), s.m.resting = false → c.owner = some sl → tget? s.m.scans tag = none →
    let n := c.ent.nsid
    let fine := s.m.isFine sl n
    let u := unitBlocks fine
    let x := c.ent.lba / u
    let k := mapKey fine sl n x
    let g := c.grains fine
    let xs := (List.range g.2).map (· + g.1)
    (∀ (parts : List (List Byte)) (fault : Option (Fin 4)), s.m.sole tag c 0x02 →
      (∀ y ∈ xs, s.m.loaded fine (mapKey fine sl n y) = true ∧ s.m.badEntry fine (mapKey fine sl n y) = false ∧
        s.m.pagesFor c.asn sl n y = []) →
      xs.map (fun y => s.m.contentAt (s.m.pageFor tag) c.asn sl n y) = parts.map some →
      let data := (parts.flatten.drop (4096 * (c.ent.lba - g.1 * unitBlocks fine))).take (4096 * c.ent.nblk)
      let bad := s.m.badHints c
      ∃ (m2 : Mach) (ds : List Pkt) (p : Pkt), exec (.read tag fault) s = .next (s.on m2) ∧ s.m.ended m2 tag c (if bad = 0 then 0 else 1) bad ∧
        tget [] m2.lnk.out 0 = tget [] s.m.lnk.out 0 ++ ds ++ [p] ∧ ds.flatMap (·.data) = data ∧ m2.map.coarse = s.m.map.coarse ∧
        m2.map.fine = s.m.map.fine) ∧
    (∀ q : Fin 4, s.m.sole tag c 0x02 →
      (∀ y ∈ xs, s.m.loaded fine (mapKey fine sl n y) = true ∧ s.m.badEntry fine (mapKey fine sl n y) = false) →
      let keys := xs.flatMap fun y => s.m.pagesFor c.asn sl n y
      keys ≠ [] → (∀ p ∈ keys, (s.m.page? p).isSome = true ∧ (s.m.fch.got.any fun g => g.tag == tag.val && g.page == p) = true) →
      (s.m.mediaPass sl n none).2 = 0 →
      ∃ m2 : Mach, exec (.read tag (some q)) s = .next (s.on m2) ∧ s.m.endedOpen m2 tag c 0x0407 ∧ s.m.counted m2 (577 + 8 * q)) ∧
    (s.m.sole tag c 0x04 → s.m.map.work = [] →
      (s.m.map.jsn ≤ s.m.map.jsnDone → ∃ m2 : Mach, exec (.flush tag) s = .next (s.on m2) ∧ s.m.ended m2 tag c 0 0) ∧
      (s.m.map.jsnDone < s.m.map.jsn →
        ∃ (m2 : Mach) (c2 : Cmd), exec (.flush tag) s = .next (s.on m2) ∧ m2.hq.cmds = [(tag.val, c2)] ∧ c2.verdict = some (0, 0) ∧
          c2.count = s.m.map.jsn ∧ m2.hq.cqes = s.m.hq.cqes ∧ m2.map.jopen = [] ∧
          (s.m.map.jopen ≠ [] → m2.map.jqueue.length = s.m.map.jqueue.length + 1))) ∧
    (c.count = 0 → c.ent.nblk = u → c.ent.lba % u = 0 → s.m.map.work = [] → s.m.pwr.stop = false →
      s.m.loaded fine k = true → s.m.badEntry fine k = false →
      (s.m.sole tag c 0x05 → fine = false → c.bufs = [] → (∀ o ∈ s.m.hq.ovls, o.kind = .write) → s.m.map.jsnDone ≤ s.m.map.jsn →
        ∀ fault, ∃ (m2 : Mach) (c2 : Cmd) (p : JPage) (r : JRec), exec (.trim tag fault) s = .next (s.on m2) ∧ m2.entry false k = at_ 61 3 ∧
          (∀ j, j ≠ k → m2.entry false j = s.m.entry false j) ∧ m2.map.jsn = s.m.map.jsn + 1 ∧ m2.map.jopen = [] ∧
          m2.map.jqueue = s.m.map.jqueue ++ [p] ∧ p.recs = s.m.map.jopen ++ [r] ∧ r.typ = 3 ∧ r.jsn = s.m.map.jsn + 1 ∧ r.slice = sl ∧
          r.ns = n ∧ r.w1 = w64 x ∧ m2.hq.cmds = [(tag.val, c2)] ∧ c2.count = 1) ∧
      (∀ d : List Byte, s.m.sole tag c 0x03 → s.m.bufData (c.bufs.take u) = (s.m, some d) → d.length = 4096 * u → d.all (· == 0) = false →
        (s.m.mediaPass sl n none).2 = 0 → (∀ q, q < 4 → ∃ e, s.m.openSet true fine q 0 = some e ∧ 4096 * u + 98304 ≤ s.m.roomIn e.2) →
        ∃ (m2 : Mach) (c2 : Cmd) (g : WGrain), exec (.write tag none) s = .next (s.on m2) ∧ m2.map.work = [g] ∧ g.content = d ∧ g.slice = sl ∧
          g.ns = n ∧ g.grain = x ∧ g.fine = fine ∧ g.asn = c.asn ∧ g.lsn = s.m.map.lsn ∧ g.issued = true ∧ g.landed = false ∧ g.mapped = false ∧
          g.kind ≠ .zero ∧ m2.map.lsn = s.m.map.lsn + 1 ∧ (∀ f j, m2.entry f j = s.m.entry f j) ∧
          m2.hq.cmds = [(tag.val, c2)] ∧ c2.count = 1 ∧ c2.started = true) ∧
      (∀ (d : List Byte) (f : UnitFault), s.m.sole tag c 0x03 → s.m.bufData (c.bufs.take u) = (s.m, some d) → d.length = 4096 * u →
        d.all (· == 0) = false → (s.m.mediaPass sl n none).2 = 0 → (fine = true → ∀ e, f ≠ .groat e) → c.bufs.length = u →
        ∃ m2 : Mach, exec (.write tag (some (0, f))) s = .next (s.on m2) ∧ s.m.endedOpen m2 tag c f.status ∧ (∀ h j, m2.entry h j = s.m.entry h j) ∧
          m2.map.work = [] ∧ s.m.counted m2 (match f with | .groat e => 515 + 8 * e | .cipher q => 577 + 8 * q)))

/-- LOAD-PROGRAM answers the offset of a bad header field or SEAL-MISMATCH, and enters a good image in its owner's table; UNLOAD takes it
out. KEY-LOAD writes the unwrapped key into its slot, which ring 0 may erase and reload. FIRMWARE-STAGE keeps which units it has
programmed, and a unit that fails verify ends the staging. FIRMWARE-ACTIVATE ends on a bad image, or drains, restarts the culms in a
trial, and ends with CONFIRM or falls back at the window's end; LIMP enters limp mode (R85, R282, R294, R452, R454, R456, R577 to R580).
-/
def Obligations.HostLoads : Prop :=
  ∀ (s : State) (tag : Fin 65536) (c : Cmd) (w : Who) (slot : Fin 2048), s.m.resting = false →
    let crip := (c.owner.map s.m.crippled).getD false
    let img := c.hints.take c.ent.dlen
    let ring := ownerRing c.owner
    let b := 1 - s.m.fwa.bank
    (s.m.sole tag c 0x08 → c.ent.unload = false → c.phase = .dataReady → crip = false →
      ∀ p a, s.m.progFree c.owner = some p → s.m.progSpace c.owner (ceilDiv c.ent.dlen 65536) = some a →
      (∀ o, imageBad img ring.code (c.ent.dlen - 64) = some o →
        ∃ m2 : Mach, exec (.loadProgram tag) s = .next (s.on m2) ∧ s.m.ended m2 tag c 0x0101 o ∧ m2.slc = s.m.slc) ∧
      (∀ sl, c.owner = some sl → imageBad img ring.code (c.ent.dlen - 64) = none →
        let v := s.m.key (s.m.slice sl).desc.ksfirst
        v.cplOk = true →
        ((v.valid && v.usage == .seal_ && sealGood v.value img) = false →
          ∃ m2 : Mach, exec (.loadProgram tag) s = .next (s.on m2) ∧ s.m.endedOpen m2 tag c 0x0406 ∧ m2.slc = s.m.slc) ∧
        ((v.valid && v.usage == .seal_ && sealGood v.value img) = true →
          ∃ (m2 : Mach) (g : Prog), exec (.loadProgram tag) s = .next (s.on m2) ∧ s.m.ended m2 tag c 0 p ∧
            m2.slc.progs = tset s.m.slc.progs (progKey c.owner p) g ∧ g.base = a ∧ g.ring = .r2 ∧ g.entry = leAt img 12 4 ∧
            g.bodyLen = leAt img 8 4))) ∧
    (s.m.sole tag c 0x08 → c.ent.unload = true →
      let p := fld (c.ent.param 0) 5 0
      (s.m.prog? c.owner p = none → ∃ m2 : Mach, exec (.unloadProgram tag) s = .next (s.on m2) ∧ s.m.ended m2 tag c 0x0101 40) ∧
      (∀ g, s.m.prog? c.owner p = some g →
        (s.m.imageUsed g = true → ∃ m2 : Mach, exec (.unloadProgram tag) s = .next (s.on m2) ∧ s.m.ended m2 tag c 0x0101 40 ∧ m2.slc = s.m.slc) ∧
        (s.m.imageUsed g = false →
          ∃ m2 : Mach, exec (.unloadProgram tag) s = .next (s.on m2) ∧ s.m.ended m2 tag c 0 p ∧ m2.prog? c.owner p = none))) ∧
    (s.m.sole tag c 0x0C → c.phase = .dataReady →
      let k := fld (c.ent.param 0) 10 0
      (s.m.keyTarget c.owner k = none → ∃ m2 : Mach, exec (.keyLoad tag) s = .next (s.on m2) ∧ s.m.endedOpen m2 tag c 0x0105 ∧ m2.dgs = s.m.dgs) ∧
      (∀ kek v d, s.m.keyTarget c.owner k = some (kek, v) → s.m.bufData c.bufs = (s.m, some d) →
        (kwUnwrap kek (d.take 40) = none →
          ∃ m2 : Mach, exec (.keyLoad tag) s = .next (s.on m2) ∧ s.m.endedOpen m2 tag c 0x0406 ∧ m2.dgs = s.m.dgs) ∧
        (∀ key, kwUnwrap kek (d.take 40) = some key →
          (s.m.inhibited = false →
            ∃ m2 : Mach, exec (.keyLoad tag) s = .next (s.on m2) ∧ s.m.ended m2 tag c 0 0 ∧
              m2.key k = { v with value := key, gen := sat (2 ^ 32 - 1) ((s.m.key k).gen + 1), cplOk := true }) ∧
          (s.m.inhibited = true →
            ∃ m2 : Mach, exec (.keyLoad tag) s = .next (s.on m2) ∧ m2.hq.cqes = s.m.hq.cqes ∧
              m2.dgs = { s.m.dgs with held := s.m.dgs.held ++ [{ slot := k, key := { v with value := key }, tag := tag }] })))) ∧
    (w.ring = .r0 → slot.val ≠ 0 → slot.val ≠ 1 → slot.val ≠ 5 → slot.val ≠ 6 →
      (∃ m2 : Mach, exec (.keyErase w slot) s = .next (s.on (m2.answer .done)) ∧ (m2.key slot).valid = false ∧ (m2.key slot).value = 0 ∧
        tget? m2.dgs.store slot = none ∧ m2.mem = s.m.mem) ∧
      (∀ e, tget? s.m.dgs.store slot = some e →
        ∃ m2 : Mach, exec (.keyReload w slot) s = .next (s.on (m2.answer .done)) ∧ (m2.key slot).value = e.value ∧
          (m2.key slot).valid = e.valid ∧ (m2.key slot).usage = e.usage ∧ m2.mem = s.m.mem)) ∧
    (w.ring ≠ .r0 → ∀ i, i ∈ [Instr.keyErase w slot, .keyReload w slot, .confirm w, .fwaLimp w] →
      exec i s = .next (s.on (s.m.answer (.denied 2)))) ∧
    (s.m.sole tag c 0x0D → c.phase = .dataReady → s.m.inhibited = false → s.m.fwa.op = none → s.m.fwa.susp = none →
      ((c.ent.param 0).toNat ≠ 0 → s.m.fwa.staging = none →
        ∀ bad, ∃ m2 : Mach, exec (.firmwareStage tag bad) s = .next (s.on m2) ∧ s.m.ended m2 tag c 0x0101 40 ∧ m2.fwa = s.m.fwa) ∧
      (∀ d, let m0 : Mach := { s.m with fwa := { s.m.fwa with staging := some { sectors := [], units := [], image := 0 } } }
        (c.ent.param 0).toNat = 0 → c.ent.dlen ≤ 0xF00000 → m0.bufData c.bufs = (m0, some d) →
        (∃ m2 : Mach, exec (.firmwareStage tag none) s = .next (s.on m2) ∧ s.m.ended m2 tag c 0 0 ∧
          (m2.fwa.staging.map fun t : Staging => t.units) = some (List.range (c.ent.dlen / 256)) ∧ m2.fwa.bank = s.m.fwa.bank) ∧
        (∀ i, i < c.ent.dlen / 256 →
          ∃ m2 : Mach, exec (.firmwareStage tag (some i)) s = .next (s.on m2) ∧ s.m.ended m2 tag c 0x0300 (0x1000000 * b + 256 * i) ∧
            m2.fwa.staging = none ∧ m2.fwa.bank = s.m.fwa.bank))) ∧
    (s.m.sole tag c 0x0E → c.started = false → s.m.inhibited = false →
      (s.m.stagedGood = false →
        ∃ m2 : Mach, exec (.firmwareActivate tag) s = .next (s.on m2) ∧ s.m.ended m2 tag c 0x0406 1 ∧ m2.hq.act = false ∧ m2.fwa = s.m.fwa) ∧
      (s.m.stagedGood = true → s.m.fwa.limp = false →
        ∃ m2 : Mach, exec (.firmwareActivate tag) s = .next (s.on m2) ∧
          m2.hq.cmds = [(tag.val, { c with started := true, phase := .running })] ∧
          m2.fwa = { s.m.fwa with act := some { tag := tag, phase := .drain, bank := b, fallback := s.m.fwa.bank } })) ∧
    (∀ a : Act, s.m.fwa.act = some a → s.m.hq.cmds = [(a.tag, c)] →
      (a.phase = .drain → a.tag = tag.val → s.m.map.jsnDone < s.m.map.jsn → exec (.firmwareActivate tag) s = .next (s.on s.m.closeJournal)) ∧
      (a.phase = .drain → a.tag = tag.val → s.m.map.jsn ≤ s.m.map.jsnDone → s.m.inhibited = false →
        ((s.m.appendSelect a.bank 2 a.fallback).runBank a.bank).bankGood a.bank = true →
        ∃ m2 : Mach, exec (.firmwareActivate tag) s = .next (s.on m2) ∧ m2.fwa.act = some { a with phase := .trial s.m.tb } ∧
          m2.fwa.trial = true ∧ m2.fwa.bank = a.bank ∧ m2.hq.cmds = s.m.hq.cmds) ∧
      (∀ st, a.phase = .trial st → s.m.hq.aborts = [] → c.lostDwr = false →
        (s.m.tb < st + 2000000 → exec .activationWindowExpire s = .next s) ∧
        (st + 2000000 ≤ s.m.tb →
          ∃ m2 : Mach, exec .activationWindowExpire s = .next (s.on m2) ∧ s.m.ended m2 a.tag c 0x0406 3 ∧ m2.fwa.bank = a.fallback ∧
            m2.fwa.act = none ∧ m2.fwa.trial = false ∧ m2.hq.act = false) ∧
        (s.m.tb < st + 2000000 → s.m.fwa.trial = true → w.ring = .r0 →
          ∃ m2 : Mach, exec (.confirm w) s = .next (s.on (m2.answer .done)) ∧ s.m.ended m2 a.tag c 0 (fld s.m.fwa.image 47 0) ∧
            m2.fwa.act = none ∧ m2.fwa.trial = false ∧ m2.hq.act = false))) ∧
    (w.ring = .r0 → s.m.fwa.limp = false →
      ∃ m2 : Mach, exec (.fwaLimp w) s = .next (s.on (m2.answer .done)) ∧ m2.fwa.limp = true ∧ m2.fwa.limpCause = 5 ∧ m2.sch.thrs = [] ∧
        m2.sch.pool = 128 ∧ m2.hq.ready = true ∧ m2.hq.entry = none ∧ m2.hq.ovls = [])

/-! ## Freeze, debug, the test access port and the ports of control space (R6, R104, R117 to R119, R604 to R618, R626) -/

/-- FRZ_N and FREEZE begin an entry; the fabric rests when it is complete, the link in HOLD; monitors are noted; without a source it thaws
with event 994, the link by RECOVERY. HALT and DEBUG_RESUME stop and free a core, by the debug port alone and not at level 2; at level 1
LOWER burns its fuse and resets the module (R572, R604 to R612, R617). -/
def Obligations.FreezeAndHalt : Prop :=
  ∀ (s : State) (w : Who) (n : Fin 96) (j : Fin 2) (c : Nat), s.m.pwr.hotReset = false → s.m.pwr.noVin = false → s.m.lands.nresetLow = false →
    let d := s.m.dbg
    (s.m.booted = false → exec .frzNAssert s = .next (s.on { s.m with dbg := { d with frzPin := true } })) ∧
    (s.m.booted = true → d.frozen = false → d.entering = false →
      exec .frzNAssert s = .next (s.on { s.m with dbg := { d with frzPin := true, entering := true, entryAt := s.m.tb, frzNand := [] } })) ∧
    (w.dbg = true → s.m.fwa.level ≠ 2 → d.frozen = false → d.entering = false → exec (.freeze w) s =
      .next (s.on ({ s.m with dbg := { d with frzCmd := true, entering := true, entryAt := s.m.tb, frzNand := [] } }.answer .done))) ∧
    (d.entering = false → exec .freezeComplete s = .next s) ∧
    (d.entering = true → d.frozen = false → d.source = true →
      ∃ m2 : Mach, exec .freezeComplete s = .next (s.on m2) ∧ m2.dbg.frozen = true ∧ m2.dbg.entering = false ∧ m2.dbg.frzStart = d.entryAt ∧
        m2.dbg.count = sat (2 ^ 32 - 1) (d.count + 1) ∧ m2.resting = true ∧ m2.mem = s.m.mem ∧ m2.sch = s.m.sch ∧
        (s.m.lnk.state = .active → m2.lnk = { s.m.lnk with state := .hold, holdAt := s.m.tb } ∧ m2.dbg.asserted = d.asserted ++ [38]) ∧
        (s.m.lnk.state ≠ .active → m2.lnk = s.m.lnk ∧ m2.dbg.asserted = d.asserted)) ∧
    ((d.frozen || d.entering) = true → exec (.freezeMonitorReady n j) s =
      .next (s.on { s.m with dbg := { d with frzNand := tmod 0 (fun v => v ||| (1 <<< (2 * (n.val % 32) + j.val))) d.frzNand (n.val / 32) } })) ∧
    (d.frzCmd = true → exec (.thaw true) s = .next (s.on { s.m with dbg := { d with frzPin := false } })) ∧
    (s.m.fwa.level ≠ 2 → d.frzPin = true → exec (.thaw false) s = .next (s.on { s.m with dbg := { d with frzCmd := false } })) ∧
    (d.frozen = true → d.frzCmd = false → d.asserted = [] → s.m.mbx.boxes = [] → s.m.sch.timers = [] → s.m.sch.thrs = [] → s.m.fwa.act = none →
      s.m.hq.cmds = [] → s.m.pwr.holdOver s.m.tb = false → s.m.pwr.inhibit = true →
      ∃ m2 : Mach, exec (.thaw true) s = .next (s.on m2) ∧ m2.dbg.frozen = false ∧ m2.dbg.frzPin = false ∧ s.m.counted m2 994 ∧
        m2.lnk.state = (if s.m.lnk.state = .hold then .recovery else s.m.lnk.state)) ∧
    (w.dbg = true → s.m.fwa.level ≠ 2 → c < 72 →
      ((s.m.core c).halted = true → exec (.halt w (w64 c)) s = .next (s.on (s.m.answer .done))) ∧
      ((s.m.core c).halted = false → exec (.halt w (w64 c)) s =
        .next (s.on (((s.m.setCore c { s.m.core c with halted := true }).raise 995).answer .done))) ∧
      exec (.debugResume w (w64 c)) s = .next (s.on ((s.m.setCore c { s.m.core c with halted := false }).answer .done))) ∧
    (w.dbg = true → s.m.fwa.level = 1 → s.m.fwa.lowreq < 8 → s.m.inhibited = false →
      exec (.debugLower w) s = .next (s.on ((s.m.burn 3).cold.answer .done)) ∧ (s.m.burn 3).cold.fwa.lowreq = s.m.fwa.lowreq + 1) ∧
    (w.dbg = true → s.m.fwa.level = 2 → exec (.freeze w) s = .next (s.on (s.m.answer (.denied 2)))) ∧
    (w.dbg = false → exec (.freeze w) s = .next (s.on (s.m.answer (.denied 2))) ∧ exec (.halt w (w64 c)) s = .next (s.on (s.m.answer (.denied 2))) ∧
      exec (.debugResume w (w64 c)) s = .next (s.on (s.m.answer (.denied 2))) ∧ exec (.debugLower w) s = .next (s.on (s.m.answer (.denied 2))))

/-- A register write: outside control space BUS-ERROR 1, unaligned BUS-ERROR 2, by a ring that may not CONTROL-DENIED 2; reserved bits are
recorded, the first of them, with event 992; SYS_FWPROT_k is written once; SYS_RSVD_WRITE is cleared by bit 63. The I2C port reads the
identity, the time base and the rest of its list, and does not acknowledge another address or answer in reset (R6, R11, R32, R103 to R105,
R117 to R119, R626). -/
def Obligations.RegisterPorts : Prop :=
  ∀ (s : State) (w : Who) (a : BitVec 40) (v : W64) (k : Fin 4), s.m.resting = false →
    let f : FwProt := { valid := bit v 63, limit := v.extractLsb' 28 28, base := v.extractLsb' 0 28, locked := true }
    (regionOf a.toNat ≠ .control → exec (.registerWrite w a v) s = .next (s.on (s.m.answer (.busError 1)))) ∧
    (regionOf a.toNat = .control → a.toNat % 8 ≠ 0 → exec (.registerWrite w a v) s = .next (s.on (s.m.answer (.busError 2)))) ∧
    (w.ring ≠ .r0 → exec (.registerWrite w 0x200000020 v) s = .next (s.on (s.m.answer (.denied 2))) ∧
      exec (.registerWrite w (BitVec.ofNat 40 (0x200000100 + 8 * k.val)) v) s = .next (s.on (s.m.answer (.denied 2)))) ∧
    (w.ring = .r0 →
      exec (.registerWrite w 0x200000020 (flagAt 63 true)) s =
        .next (s.on ({ s.m with sys := { s.m.sys with rsvFlag := false, rsvCount := 0 } }.answer .done)) ∧
      (fld v 62 56 = 0 → (tget FwProt.reset s.m.sys.fwprot k).locked = false →
        exec (.registerWrite w (BitVec.ofNat 40 (0x200000100 + 8 * k.val)) v) s =
          .next (s.on ({ s.m with sys := { s.m.sys with fwprot := tset s.m.sys.fwprot k.val f } }.answer .done))) ∧
      (fld v 62 56 = 0 → (tget FwProt.reset s.m.sys.fwprot k).locked = true →
        exec (.registerWrite w (BitVec.ofNat 40 (0x200000100 + 8 * k.val)) v) s = .next (s.on (s.m.answer .done)))) ∧
    (w.low = true → v ≠ 0 → s.m.sys.rsvFlag = false →
      ∃ m2 : Mach, exec (.registerWrite w 0x200000040 v) s = .next (s.on (m2.answer .done)) ∧ m2.sys.rsvFlag = true ∧ m2.sys.rsvKind = false ∧
        m2.sys.rsvRing = w.ring.code ∧ m2.sys.rsvAddr = 0x200000040 ∧ m2.sys.rsvCount = sat 65535 (s.m.sys.rsvCount + 1) ∧ s.m.counted m2 992) ∧
    (s.m.booted = false → exec (.i2cRead a) s = .next (s.on { s.m with lands := { s.m.lands with i2cNack := true } })) ∧
    (s.m.booted = true →
      exec (.i2cRead 0x200000000) s = .next (s.on { s.m with lands := { s.m.lands with i2c := 0x4B9600A1, i2cNack := false } }) ∧
      exec (.i2cRead 0x201300000) s = .next (s.on { s.m with lands := { s.m.lands with i2c := w64 s.m.tb, i2cNack := false } }) ∧
      (a.toNat ∉ i2cList → exec (.i2cRead a) s = .next (s.on { s.m with lands := { s.m.lands with i2cNack := true } })))

/-! ## The Ziarver link (R215 to R254) -/

/-- A flit received on an active link: a bad CRC is counted and nothing else; an unknown type is counted with event 40; a NULL flit in
order advances the expected sequence number and returns its credits; a CMD packet in a DATA flit comes to link receive; a DATA flit
without a credit, and one ahead of its turn, send a NAK, unless one is outstanding; a duplicate only acknowledges. An overdue NAK may be
repeated, an overdue flit is sent again, and after the fourth time the link goes to RECOVERY with event 36 (R224 to R234, R236, R257). -/
def Obligations.LinkReceives : Prop :=
  ∀ (s : State) (f : BitVec 1024), s.m.resting = false →
    let k := s.m.lnk
    let l := leBytes 128 f.toNat
    let hd := leAt l 120 4
    let ftype := hd % 8
    let seq := hd / 8 % 4096
    let ack := hd / 2 ^ 15 % 4096
    let at_once := crc32c (l.take 124) = leAt l 124 4
    (k.state ≠ .active → exec (.flitReceive f) s = .next s) ∧
    (k.state = .active →
      (¬ at_once → exec (.flitReceive f) s = .next (s.on { s.m with lnk := { k with errCrc := sat 65535 (k.errCrc + 1) } })) ∧
      (at_once → ftype = 2 → exec (.flitReceive f) s = .next (s.on (s.m.useAck ack))) ∧
      (at_once → ftype = 3 → exec (.flitReceive f) s =
        .next (s.on (Mach.raise { s.m with lnk := { k with errUnk := sat 65535 (k.errUnk + 1) } } 40))) ∧
      (at_once → ftype = 0 → seq = k.rxExp → k.replay = [] →
        ∃ m2 : Mach, exec (.flitReceive f) s = .next (s.on m2) ∧ m2.lnk.rxExp = (k.rxExp + 1) % 4096 ∧ m2.lnk.nakAt = none ∧
          m2.lnk.txCrd = tmod 0 (· + hd / 2 ^ 29) k.txCrd (hd / 2 ^ 27 % 4) ∧ m2.hq = s.m.hq ∧ m2.mem = s.m.mem) ∧
      (∀ (p : BitVec 20) (q : Fin 512) (b : List Byte), at_once → ftype = 4 → seq = k.rxExp → k.replay = [] → (s.m.ledger 10).free ≠ 0 →
        tget [] k.rxBytes 0 = [] → tget 0 k.rxSkip 0 = 0 → s.m.hq.ready = false → b.length = 64 →
        l.take 120 = leBytes 8 (64 * 2 ^ 48 + p.toNat * 2 ^ 8 + 1) ++ leBytes 8 q.val ++ b ++ zeros 40 →
        ∃ m2 : Mach, exec (.flitReceive f) s = .next (s.on m2) ∧ m2.lnk.rxExp = (k.rxExp + 1) % 4096 ∧
          m2.hq = { s.m.hq with held := s.m.hq.held ++ [{ qp := q, ent := { words := BitVec.ofNat 512 (leNat b), procid := p.toNat } }] }) ∧
      (at_once → 4 ≤ ftype → seq = k.rxExp → (s.m.ledger (10 + ftype - 4)).free = 0 → k.nakAt = none →
        ∃ m2 : Mach, exec (.flitReceive f) s = .next (s.on m2) ∧ m2.lnk.errNocred = sat 65535 (k.errNocred + 1) ∧ m2.lnk.rxExp = k.rxExp ∧
          m2.lnk.lctl = k.lctl ++ [at_ 8 k.rxExp ||| at_ 0 1] ∧ m2.hq = s.m.hq ∧ s.m.counted m2 43) ∧
      (at_once → ftype ≠ 2 → ftype ≠ 3 → seq ≠ k.rxExp → seqBefore k.rxExp seq = true →
        (∀ t, k.nakAt = some t → s.m.tb < t + 1000 → exec (.flitReceive f) s = .next s) ∧
        ((∀ t, k.nakAt = some t → t + 1000 ≤ s.m.tb) → exec (.flitReceive f) s = .next (s.on { s.m with
          lnk := { k with nakAt := some s.m.tb, lctl := k.lctl ++ [at_ 8 k.rxExp ||| at_ 0 1] } }))) ∧
      (at_once → ftype ≠ 2 → ftype ≠ 3 → seq ≠ k.rxExp → seqBefore k.rxExp seq = false →
        exec (.flitReceive f) s = .next (s.on (s.m.useAck ack)))) ∧
    (∀ t, k.nakAt = some t →
      (s.m.tb < t + 1000 → exec .nakWindowExpire s = .next s) ∧
      (t + 1000 ≤ s.m.tb → exec .nakWindowExpire s = .next (s.on { s.m with lnk := { k with nakAt := none } }))) ∧
    (∀ g rest, k.replay = g :: rest → k.state = .active →
      (s.m.tb < g.sent + 1000 → exec .replayTimeout s = .next s) ∧
      (g.sent + 1000 ≤ s.m.tb → k.resend < k.replay.length → k.repeats ≠ 3 → exec .replayTimeout s = .next (s.on { s.m with
        lnk := { k with resend := k.replay.length, errReplay := sat 65535 (k.errReplay + 1), repeats := k.repeats + 1 } })) ∧
      (g.sent + 1000 ≤ s.m.tb → k.resend < k.replay.length → k.repeats = 3 →
        ∃ m2 : Mach, exec .replayTimeout s = .next (s.on m2) ∧ m2.lnk.state = .recovery ∧ m2.lnk.repeats = 0 ∧
          m2.lnk.resend = k.replay.length ∧ m2.lnk.errReplay = sat 65535 (k.errReplay + 1) ∧ s.m.counted m2 36))

/-- What the transmitter of an active link sends, outside limp mode: a flit that waits to go again; HOLD with reason 0 while 512 flits are
unacknowledged; link control before data; then a DATA flit of the class, filled with its packets against one credit; else a NULL flit.
Each sequenced flit takes the next sequence number and stands in the replay buffer. A lane sends a SKIP when its spacing is reached (R217,
R226, R228, R230, R231, R233, R236). -/
def Obligations.LinkTransmits : Prop :=
  ∀ (s : State) (c : Fin 4) (n : Fin 8), s.m.resting = false →
    let k := s.m.lnk
    let next := fun (m2 : Mach) (t : Nat) (b : List Byte) =>
      ∃ g : TxFlit, m2.lnk.replay = k.replay ++ [g] ∧ g.seq = k.txSeq ∧ g.ftype = t ∧ g.ack = (k.rxExp + 4095) % 4096 ∧
        g.payload = BitVec.ofNat 960 (leNat b) ∧ g.sent = s.m.tb ∧ m2.lnk.wire = some g ∧ m2.lnk.txSeq = (k.txSeq + 1) % 4096
    (s.m.fwa.limp = false → k.state ≠ .active → exec (.flitTransmit c) s = .next s) ∧
    (s.m.fwa.limp = false → k.state = .active →
      (∀ g, 0 < k.resend → k.replay[k.replay.length - k.resend]? = some g →
        ∃ m2 : Mach, exec (.flitTransmit c) s = .next (s.on m2) ∧ m2.lnk.wire = some { g with sent := s.m.tb } ∧
          m2.lnk.resend = k.resend - 1 ∧ m2.lnk.txSeq = k.txSeq ∧ m2.lnk.out = k.out) ∧
      (k.resend = 0 → 512 ≤ k.replay.length →
        ∃ (m2 : Mach) (g : TxFlit), exec (.flitTransmit c) s = .next (s.on m2) ∧ m2.lnk.wire = some g ∧ g.ftype = 2 ∧ g.payload = 0 ∧
          m2.lnk.replay = k.replay ∧ m2.lnk.txSeq = k.txSeq) ∧
      (k.resend = 0 → k.replay.length < 512 → k.pm = .none →
        (k.lctl ≠ [] →
          ∃ m2 : Mach, exec (.flitTransmit c) s = .next (s.on m2) ∧ m2.lnk.lctl = k.lctl.drop 15 ∧
            next m2 1 ((k.lctl.take 15).flatMap (fun e => leBytes 8 e.toNat) ++ zeros (120 - 8 * (k.lctl.take 15).length))) ∧
        (k.lctl = [] → tget [] k.out c = [] ∨ tget 0 k.txCrd c = 0 →
          ∃ m2 : Mach, exec (.flitTransmit c) s = .next (s.on m2) ∧ next m2 0 (zeros 120) ∧ m2.lnk.txCrd = k.txCrd) ∧
        (c.val < 3 → k.lctl = [] → tget [] k.out c ≠ [] → tget 0 k.txCrd c ≠ 0 →
          let p := packFlit 120 (tget [] k.out c) (tget 0 k.outSent c)
          p.cqs = [] →
          ∃ m2 : Mach, exec (.flitTransmit c) s = .next (s.on m2) ∧ next m2 (4 + c) p.bytes ∧ tget [] m2.lnk.out c = p.rest ∧
            tget 0 m2.lnk.outSent c = p.sent ∧ tget 0 m2.lnk.txCrd c = tget 0 k.txCrd c - 1))) ∧
    (k.state = .active → k.activeLane n = true → (if s.m.refLost then 1024 else 4096) ≤ (s.m.lane n).sinceSkip →
      exec (.skipSend n) s = .next (s.on (s.m.setLane n { s.m.lane n with sinceSkip := 0, skips := (s.m.lane n).skips + 1 }))) ∧
    (k.state ≠ .active ∨ k.activeLane n = false ∨ (s.m.lane n).sinceSkip < (if s.m.refLost then 1024 else 4096) →
      exec (.skipSend n) s = .next s)

/-- The training of the link: DETECT to POLL at the peer's ordered sets, POLL to CONFIG with the lanes that lock, back to DETECT after 40
ms without one, CONFIG to ACTIVE with the widest group that both ends find good, by CONTINUE or with a new session whose counts start at
zero; without a group DETECT. A lane that fails to lock, or sums 64 block errors in 100 ms, is bad, and an active link then goes to
RECOVERY, as it does on the loss of block lock and by LNK_CTL of ring 0. Event 46 tells of no link after 300 ms (R244 to R246, R250,
R254). -/
def Obligations.LinkTrains : Prop :=
  ∀ (s : State) (n : Fin 8) (e : Nat) (lanes : BitVec 8) (dom : Fin 8) (gr : W64) (x : BitVec 12) (w : Who), s.m.resting = false →
    let k := s.m.lnk
    let r := s.m.toRecovery
    let ok := fun i => lanes.getLsbD i && s.m.offers i
    let bad := s.m.setLane n { s.m.lane n with bad := true, errN := 0 }
    let group := groupOfLanes fun i => s.m.offers i && (s.m.lane i).locked && lanes.getLsbD i
    r.lnk.state = .recovery ∧ r.lnk.errRecov = sat 65535 (k.errRecov + 1) ∧ r.lnk.pm = .none ∧ r.mem = s.m.mem ∧ s.m.counted r 34 ∧
    (k.state = .detect → s.m.offers n = true →
      exec (.ts1Detect n) s = .next (s.on { s.m with lnk := { k with state := .poll, pollAt := s.m.tb } })) ∧
    (k.state ≠ .detect → exec (.ts1Detect n) s = .next s) ∧
    (k.state = .poll → (∃ i, i < 8 ∧ ok i = true) →
      ∃ m2 : Mach, exec (.lanesLocked lanes) s = .next (s.on m2) ∧ m2.lnk.state = .config ∧ ∀ i, i < 8 → (m2.lane i).locked = ok i) ∧
    (k.state = .poll → (∀ i, i < 8 → ok i = false) → exec (.lanesLocked lanes) s = .next s ∧
      (s.m.tb < k.pollAt + 4000000 → exec (.pollTimeout lanes) s = .next s) ∧
      (k.pollAt + 4000000 ≤ s.m.tb → exec (.pollTimeout lanes) s = .next (s.on s.m.toDetect) ∧ s.m.toDetect.lnk.state = .detect)) ∧
    (k.state = .config ∨ k.state = .recovery →
      (group = none → exec (.configComplete lanes dom gr false x) s = .next (s.on s.m.toDetect)) ∧
      (∀ wd first, group = some (wd, first) → k.newWhy = 0 →
        ∃ m2 : Mach, exec (.configComplete lanes dom gr false x) s = .next (s.on m2) ∧ m2.lnk.state = .active ∧ m2.lnk.width = wd ∧
          m2.lnk.first = first ∧ m2.lnk.domPos = dom ∧ m2.lnk.everUp = true ∧ m2.lnk.txSeq = k.txSeq ∧ m2.lnk.rxExp = k.rxExp ∧
          m2.lnk.resend = m2.lnk.replay.length ∧ (k.state = .config → s.m.counted m2 32) ∧ (wd < k.width → s.m.counted m2 35)) ∧
      (∀ wd first, group = some (wd, first) → s.m.hq.cmds = [] → s.m.hq.cqes = [] → k.replay = [] →
        ∃ m2 : Mach, exec (.configComplete lanes dom gr true x) s = .next (s.on m2) ∧ m2.lnk.state = .active ∧ m2.lnk.width = wd ∧
          m2.lnk.first = first ∧ m2.lnk.txSeq = 0 ∧ m2.lnk.rxExp = 0 ∧ m2.lnk.replay = [] ∧ m2.lnk.newWhy = 0 ∧
          (∀ c, c < 4 → tget 0 m2.lnk.txCrd c = fld gr (16 * c + 15) (16 * c)) ∧ m2.hq.inReset = true)) ∧
    (k.state = .poll ∨ k.state = .recovery → exec (.laneBlockLockFail n) s = .next (s.on bad)) ∧
    (k.state = .active → k.activeLane n = true → (s.m.lane n).idleRx = false → e ≠ 0 →
      exec (.linkBlockLockLoss n) s = .next (s.on r) ∧
      ((s.m.lane n).errN = 0 → e < 64 →
        exec (.laneErrorWindow n e) s = .next (s.on (Mach.setLane { s.m with lnk := { k with errBlk := sat 65535 (k.errBlk + e) } } n
          { s.m.lane n with errAt := s.m.tb, errN := e }))) ∧
      (64 ≤ e → (∃ i, i < 8 ∧ i ≠ n.val ∧ s.m.offers i = true) →
        ∃ m2 : Mach, exec (.laneErrorWindow n e) s = .next (s.on m2) ∧ m2.lnk.state = .recovery ∧ (m2.lane n).bad = true ∧
          m2.lnk.errBlk = sat 65535 (k.errBlk + e))) ∧
    (w.ring = .r0 → k.state = .active ∨ k.state = .lowpower → exec (.retrain w) s = .next (s.on (r.answer .done)) ∧
      ∃ m2 : Mach, exec (.widen w) s = .next (s.on (m2.answer .done)) ∧ m2.lnk.state = .recovery ∧ ∀ i, (m2.lane i).bad = false) ∧
    (w.ring ≠ .r0 → exec (.retrain w) s = .next (s.on (s.m.answer (.denied 2))) ∧ exec (.widen w) s = .next (s.on (s.m.answer (.denied 2)))) ∧
    (30000000 ≤ s.m.tb → k.everUp = false → k.ev46 = false →
      exec .linkActiveTimeout s = .next (s.on (Mach.raise { s.m with lnk := { k with ev46 := true } } 46))) ∧
    (s.m.tb < 30000000 ∨ k.everUp = true → exec .linkActiveTimeout s = .next s)

/-- Low power on the link: PM-ENTER when it is ready to idle, again 1 ms after a refusal; IDLE-ENTER on every active lane brings LOWPOWER
with event 45, and RECOVERY when it does not come within 10 µs; electrical idle ends by the peer, or when there is something to send. A
HOLD of 1,000 ms ends in DETECT with event 39, in a freeze as well (R247 to R249). -/
def Obligations.LinkLowPower : Prop :=
  ∀ (s : State) (lanes : BitVec 8),
    let k := s.m.lnk
    let ask := s.on { s.m with lnk := { k with pm := .asked, lctl := k.lctl ++ [at_ 0 2] } }
    (s.m.resting = false →
      (k.pm = .none → s.m.pmReady = true → exec .pmEnter s = .next ask) ∧
      (k.pm ≠ .none ∨ s.m.pmReady = false → exec .pmEnter s = .next s) ∧
      (∀ t, k.pm = .refused t →
        (t + 100000 ≤ s.m.tb → s.m.pmReady = true → exec .pmRefuseRetry s = .next ask) ∧
        (s.m.tb < t + 100000 → exec .pmRefuseRetry s = .next s)) ∧
      (∀ t, k.pm = .idle t → 0 < k.width → k.first + k.width ≤ 8 →
        ((∀ i, i < k.width → lanes.getLsbD (k.first + i) = true) →
          ∃ m2 : Mach, exec (.idleEnterReceive lanes) s = .next (s.on m2) ∧ m2.lnk.state = .lowpower ∧ m2.lnk.pm = .none ∧ s.m.counted m2 45) ∧
        ((∀ i, i < 8 → (s.m.lane i).idleRx = false) → lanes = 0 → exec (.idleEnterReceive lanes) s = .next s) ∧
        (t + 1000 ≤ s.m.tb → exec .lowpowerEntryTimeout s = .next (s.on s.m.toRecovery)) ∧
        (s.m.tb < t + 1000 → exec .lowpowerEntryTimeout s = .next s)) ∧
      (k.state = .lowpower → exec (.electricalIdleExit true) s = .next (s.on (s.m.toRecovery.raise 45))) ∧
      (k.state = .lowpower → s.m.hq.pstate < 2 → exec (.electricalIdleExit false) s = .next (s.on (s.m.toRecovery.raise 45))) ∧
      (k.state ≠ .lowpower → exec (.electricalIdleExit true) s = .next s ∧ exec (.electricalIdleExit false) s = .next s)) ∧
    (s.m.pwr.hotReset = false → s.m.pwr.noVin = false → s.m.lands.nresetLow = false → k.state = .hold →
      (k.holdAt + 100000000 ≤ s.m.tb →
        exec .holdWindowTimeout s = .next (s.on (s.m.toDetect.raise 39)) ∧ (s.m.toDetect.raise 39).lnk.state = .detect) ∧
      (s.m.tb < k.holdAt + 100000000 → exec .holdWindowTimeout s = .next s))

/-! ## Slices (R290 to R308) -/

/-- CREATE reads and judges its descriptor: a slice not FREE, a bad address, a bad field, a pool or a range end it with their results;
else the slice is CREATING with its record, and goes on to LIVE with RESULT 0 and event 1002. DESTROY of a LIVE slice that nothing uses
makes it DESTROYING, then FREE with event 1003. Nothing is begun while another command runs. A binding entry is written whole where it is
valid (R297, R299, R300, R302). -/
def Obligations.SliceLife : Prop :=
  ∀ (s : State) (w : Who) (k : Fin 256) (a : BitVec 40) (e : Fin 4096) (p : BitVec 20), s.m.resting = false → s.m.pwr.mism = [] →
    let v := s.m.slice k
    let c := s.m.slc
    let begun := fun (n : Nat) => { c with busy := true, cmdSlice := k.val, cmdOp := n, cmdRes := 0, cmdPool := 0, cmdOff := 0 }
    (w.low = true → c.busy = false →
      (v.state ≠ .free → exec (.create w k a) s = .next (s.on ({ s.m with slc := { begun 1 with busy := false, cmdRes := 1 } }.answer .done))) ∧
      (v.state = .free → a.toNat % 16 ≠ 0 ∨ inStore a.toNat = false →
        exec (.create w k a) s = .next (s.on ({ s.m with slc := { begun 1 with busy := false, cmdRes := 7 } }.answer .done))) ∧
      (∀ m1 b, v.state = .free → a.toNat % 16 = 0 → inStore a.toNat = true → regionOf (a.toNat + 191) = regionOf a.toNat →
        Mach.readBytes { s.m with slc := begun 1 } a.toNat 192 = (m1, .ok b) →
        (∀ o, m1.descBad b = some o →
          ∃ m2 : Mach, exec (.create w k a) s = .next (s.on (m2.answer .done)) ∧ m2.slc = { m1.slc with busy := false, cmdRes := 2, cmdPool := 0, cmdOff := o } ∧
            m2.mem = m1.mem) ∧
        (∀ i, i < 8 → m1.descBad b = none → m1.poolTotal i < m1.poolHeld i + (descOf b).takes i →
          (∀ j, j < i → m1.poolHeld j + (descOf b).takes j ≤ m1.poolTotal j) →
          ∃ m2 : Mach, exec (.create w k a) s = .next (s.on (m2.answer .done)) ∧ m2.slc = { m1.slc with busy := false, cmdRes := 3, cmdPool := i, cmdOff := 0 }) ∧
        (m1.descBad b = none → (∀ j, j < 8 → m1.poolHeld j + (descOf b).takes j ≤ m1.poolTotal j) → m1.rangeClash (descOf b) = none →
          ∃ m2 : Mach, exec (.create w k a) s = .next (s.on (m2.answer .done)) ∧ m2.slice k = { state := .creating, desc := descOf b } ∧
            m2.slq k = { quota := (descOf b).bufq, held := 0 } ∧ m2.slc.busy = true ∧ m2.slc.cmdSlice = k ∧
            (m1.mediaHeld = false → tget? m2.slc.recs k = some { desc := descOf b, destroy := false })))) ∧
    (c.busy = true → c.cmdSlice = k → v.state = .creating → s.m.mediaHeld = false →
      ∃ m2 : Mach, exec .createComplete s = .next (s.on m2) ∧ m2.slice k = { state := .live, desc := v.desc } ∧ m2.slc.busy = false ∧
        m2.slc.cmdRes = 0 ∧ s.m.counted m2 1002 ∧ tget? m2.slc.recs k = some { desc := v.desc, destroy := false }) ∧
    (c.busy = false ∨ (s.m.slice c.cmdSlice).state ≠ .creating ∨ s.m.mediaHeld = true → exec .createComplete s = .next s) ∧
    (w.low = true → c.busy = false →
      (v.state ≠ .live → exec (.destroy w k) s = .next (s.on ({ s.m with slc := { begun 2 with busy := false, cmdRes := 1 } }.answer .done))) ∧
      (v.state = .live → tget 0 s.m.grn.tcbOf k ≠ 0 →
        exec (.destroy w k) s = .next (s.on ({ s.m with slc := { begun 2 with busy := false, cmdRes := 5 } }.answer .done))) ∧
      (v.state = .live → tget 0 s.m.grn.tcbOf k = 0 → (∀ i, i < v.desc.qpcnt → (s.m.qp (v.desc.qpfirst + i)).enable = false) → s.m.mediaHeld = false →
        ∃ m2 : Mach, exec (.destroy w k) s = .next (s.on (m2.answer .done)) ∧ m2.slice k = { state := .destroying, desc := v.desc } ∧
          m2.slc.busy = true ∧ m2.slc.cmdSlice = k ∧ m2.slc.cmdOp = 2 ∧ tget? m2.slc.recs k = some { desc := v.desc, destroy := true } ∧ m2.mem = s.m.mem)) ∧
    (w.low = true → c.busy = true →
      ∃ m2 : Mach, exec (.create w k a) s = .next (s.on (m2.answer .done)) ∧ m2.slc = c ∧ s.m.counted m2 993 ∧
        m2.sys.rsvCount = sat 65535 (s.m.sys.rsvCount + 1)) ∧
    (w.ring = .r2 → exec (.create w k a) s = .next (s.on (s.m.answer (.denied 2))) ∧ exec (.destroy w k) s = .next (s.on (s.m.answer (.denied 2)))) ∧
    (c.busy = true → c.cmdSlice = k → c.cmdOp = 2 → v.state = .destroying → s.m.inhibited = false → (s.m.evt 1003).assigned = false →
      ∃ m2 : Mach, exec .destroyComplete s = .next (s.on m2) ∧ m2.slice k = Slice.reset ∧ m2.slc.busy = false ∧ m2.slc.cmdRes = 0 ∧
        s.m.counted m2 1003 ∧ m2.slq k = Slq.reset ∧ (∀ g ∈ m2.map.work, g.slice ≠ k) ∧ tget [] m2.wnw.segs k = []) ∧
    (c.busy = false ∨ c.cmdOp ≠ 2 → exec .destroyComplete s = .next s) ∧
    (w.low = true → v.state = .live → (∀ x ∈ c.binds, x.1 ≠ e.val → x.2.procid ≠ p.toNat ∧ x.2.slice ≠ k) →
      exec (.slcBindWrite w e (flagAt 63 true ||| at_ 48 k ||| at_ 0 p.toNat)) s = .next (s.on ({ s.m with
        slc := { c with binds := tset c.binds e.val { valid := true, oper := false, slice := k, procid := p.toNat } } }.answer .done))) ∧
    (w.low = true → v.state ≠ .live →
      ∃ m2 : Mach, exec (.slcBindWrite w e (flagAt 63 true ||| at_ 48 k ||| at_ 0 p.toNat)) s = .next (s.on (m2.answer .done)) ∧ m2.slc = c ∧
        s.m.counted m2 993)

/-! ## Scans, runs and fixity (R486 to R505) -/

/-- SCAN and RUN take their filter threads, and wait while none is free. A spikelet starts on a free thread; the output that its thread
leaves becomes its record, a thread that stopped makes it fail; records are written in order, whole, and one that does not fit ends the
command; a sealed record is the header with the ciphertext and the tag, unless the pair's check fails. VERIFY-FIXITY opens a digest
context and compares the digest of the range with the host's (R490 to R505). -/
def Obligations.ScanPipelines : Prop :=
  ∀ (s : State) (tag : Fin 65536) (k : Fin 4096) (c : Cmd) (sc : Scan) (fault : Option (Fin 4)), s.m.resting = false → s.m.pwr.mism = [] →
    let pn := fld (c.ent.param 0) 15 0
    let w := s.m.scanWidth c
    let begun := fun (i : Instr) (f : Profile) => ∃ (m2 : Mach) (x : Scan), exec i s = .next (s.on m2) ∧ tget? m2.scans tag = some x ∧
      x.prog = pn ∧ x.threads.length = w ∧ x.next = 0 ∧ x.recs = 0 ∧ x.spks = [] ∧ x.bytes = 0 ∧ x.outbufs = f.outbufs ∧
      x.insnMax = f.insnMax ∧ x.classify = f.classify ∧ m2.hq.cmds = [(tag.val, { c with started := true, phase := .running })]
    (∀ g f, tget? s.m.scans tag = none → s.m.prog? c.owner pn = some g →
      (s.m.sole tag c 0x07 → s.m.profileOf g false = some f → w ≠ 0 → begun (.scan tag) f) ∧
      (s.m.sole tag c 0x09 → s.m.profileOf g true = some f → w ≠ 0 → begun (.run tag) f)) ∧
    (s.m.sole tag c 0x07 → w = 0 → exec (.scan tag) s = .next s) ∧
    (s.m.sole tag c 0x09 → w = 0 → exec (.run tag) s = .next s) ∧
    (s.m.cmd? tag = some c → c.verdict = none → tget? s.m.scans tag = some sc →
      (c.spkCount ≤ sc.next ∨ c.stopReq.isSome = true ∨ sc.failing = true ∨ s.m.filterFree sc k = false →
        exec (.spikeletStart tag k fault) s = .next s) ∧
      (∀ l q m0, c.stopReq = none → sc.failing = false → sc.next < c.spkCount → s.m.filterFree sc k = true → c.ent.nblk = 0 →
        sc.classify = false → c.owner = none → s.m.spkBufs c sc = some (l, q, m0) →
        (((m0.fillBufs q []).putRun (bufAddr (l.headD 0)) (spkDesc c sc sc.next 0 0 [] q (l.drop 1))).filterStart k (bufAddr (l.headD 0))).1 = 0 →
        ∃ (m2 : Mach) (x : Scan), exec (.spikeletStart tag k fault) s = .next (s.on m2) ∧ tget? m2.scans tag = some x ∧ x.next = sc.next + 1 ∧
          tget? x.spks sc.next = some { state := .running k, dbuf := l.headD 0, inb := [], cls := q, outb := l.drop 1 } ∧
          (m2.thr k).arg = w64 (bufAddr (l.headD 0))) ∧
      (sc.of k = none → exec (.spikeletEnd tag k fault) s = .next s) ∧
      (∀ n sp, sc.of k = some (n, sp) →
        ((s.m.thr k).state = .stopped → exec (.spikeletEnd tag k fault) s =
          .next (s.on (s.m.setScan tag (sc.put n { sp with state := .failed 0x0408 (fld (s.m.thr k).xrec 15 0) })))) ∧
        (∀ d b, (s.m.thr k).state = .waiting → (s.m.thr k).waitKind = .waitwork → sc.sealRec = false →
          s.m.readBytes (bufAddr sp.dbuf) 64 = (s.m, .ok d) → leAt d 0x20 4 ≤ 4096 * sc.outbufs → s.m.outBytes sp.outb (leAt d 0x20 4) = (s.m, some b) →
          exec (.spikeletEnd tag k fault) s = .next (s.on (s.m.setScan tag
            (sc.put n { sp with state := .output (pad16 (leBytes 8 n ++ leBytes 4 b.length ++ [0] ++ zeros 3 ++ b)) })))) ∧
        (∀ d b m1, (s.m.thr k).state = .waiting → (s.m.thr k).waitKind = .waitwork → sc.sealRec = true →
          s.m.readBytes (bufAddr sp.dbuf) 64 = (s.m, .ok d) → leAt d 0x20 4 ≤ 4096 * sc.outbufs → s.m.outBytes sp.outb (leAt d 0x20 4) = (s.m, some b) →
          b ≠ [] → s.m.useKey sc.sealSlot (ownerRing c.owner) (c.owner.getD 0) [.general] = (m1, some true) →
          let key := (m1.key sc.sealSlot).value
          let iv := (d.drop 0x28).take 12
          let h := leBytes 8 n ++ leBytes 4 b.length ++ [1] ++ zeros 3
          let x := gcmCrypt key iv b
          exec (.spikeletEnd tag k none) s =
            .next (s.on (m1.setScan tag (sc.put n { sp with state := .output (pad16 (h ++ x ++ gcmTag key iv h x)) }))) ∧
          (∀ q, exec (.spikeletEnd tag k (some q)) s =
            .next (s.on ((m1.unitFault (.cipher q)).setScan tag (sc.put n { sp with state := .failed 0x0407 0 })))))) ∧
      (tget? sc.spks sc.recs = none → exec (.recordWrite tag) s = .next s) ∧
      (∀ sp b, tget? sc.spks sc.recs = some sp → sp.state = .output b → c.stopReq = none →
        (sc.bytes + b.length ≤ c.ent.dlen → sc.recs + 1 < c.spkCount →
          ∃ (m2 : Mach) (x : Scan) (ds : List Pkt), exec (.recordWrite tag) s = .next (s.on m2) ∧ tget? m2.scans tag = some x ∧
            x.recs = sc.recs + 1 ∧ x.bytes = sc.bytes + b.length ∧ x.blocks = sc.blocks + (c.spk sc.recs).2 ∧ tget? x.spks sc.recs = none ∧
            tget [] m2.lnk.out 0 = tget [] s.m.lnk.out 0 ++ ds ∧ ds.flatMap (·.data) = b ∧ (∀ d ∈ ds, d.ptype = 3 ∧ d.asn = some c.asn) ∧
            m2.hq = s.m.hq) ∧
        (c.ent.dlen < sc.bytes + b.length → s.m.hq.cmds = [(tag.val, c)] → s.m.hq.aborts = [] → c.ent.opc = 0x07 ∨ c.ent.opc = 0x09 →
          sc.threads = [] → c.lostDwr = false →
          ∃ m2 : Mach, exec (.recordWrite tag) s = .next (s.on m2) ∧ s.m.ended m2 tag c 0x0400 sc.bytes ∧ tget? m2.scans tag = none)) ∧
      (∀ sp st low, tget? sc.spks sc.recs = some sp → sp.state = .failed st low → c.stopReq = none → s.m.hq.cmds = [(tag.val, c)] →
        s.m.hq.aborts = [] → c.ent.opc = 0x07 ∨ c.ent.opc = 0x09 → sc.threads = [] → c.lostDwr = false →
        ∃ m2 : Mach, exec (.recordWrite tag) s = .next (s.on m2) ∧
          ∃ rs, s.m.ended m2 tag c st rs ∧ (st = 0x0408 → rs = low + 2 ^ 16 * sc.bytes) ∧ (st ∈ [0x0300, 0x0304, 0x0407] → rs = sc.bytes))) ∧
    (s.m.sole tag c 0x06 →
      (tget? s.m.scans tag = none → c.phase = .dataReady → s.m.dgs.ctxs = [] → (s.m.ledger 7).free ≠ 0 →
        ∃ (m2 : Mach) (x : Scan) (h : Nat), exec (.verifyFixity tag fault) s = .next (s.on m2) ∧ tget? m2.scans tag = some x ∧ x.ctx = some h ∧ h < 16 ∧
          (m2.dctx h).open_ = true ∧ (m2.dctx h).forTag = some tag.val ∧ m2.hq.cmds = [(tag.val, { c with started := true, phase := .running })]) ∧
      (∀ h m1 b mb dg, tget? s.m.scans tag = some sc → sc.threads = [] → sc.ctx = some h → (s.m.dctx h).cplOk = true → (s.m.dctx h).err = 0 →
        let u := unitBlocks (s.m.isFine (c.owner.getD 0) c.ent.nsid)
        let x := (c.ent.lba + sc.blocks) / u
        s.m.grainIn tag c x fault = .ok m1 b → c.ent.lba + c.ent.nblk ≤ (x + 1) * u → sc.blocks < c.ent.nblk → m1.hq = s.m.hq → m1.scans = s.m.scans →
        let f1 := m1.fixityFeed sc h ((b.drop (4096 * (c.ent.lba + sc.blocks - x * u))).take (4096 * (c.ent.nblk - sc.blocks)))
        let s1 := { f1.2 with blocks := c.ent.nblk }
        (f1.1.setScan tag s1).bufData c.bufs = (mb, some dg) → mb.hq = s.m.hq →
        let f2 := f1.1.fixityFeed s1 h ((f1.1.dctx h).alg.padding 0 (4096 * c.ent.nblk))
        ∃ m2 : Mach, exec (.verifyFixity tag fault) s = .next (s.on m2) ∧
          s.m.ended m2 tag c (if dg.take c.ent.dlen == (f2.1.dctx h).digest then 0 else 0x0401) c.ent.nblk))

/-! ## Media translation (R309 to R352) -/

/-- A grain whose stripes have closed has landed; the map update of a landed grain names its landing header, with a GRAIN record; a copy
that reached its commit takes a FOLD record; a closed landing set that nothing names is ERASING and its erases are queued. A journal page
closes 50 ms after its first record; verified in both copies it is durable, and a move whose entry still equals OLD takes effect. A
checkpoint takes a record; a loaded page is warm, and one with a malformed entry raises the MAP alarm (R312, R317, R318, R323, R325, R327,
R333, R334, R338). -/
def Obligations.MediaTranslation : Prop :=
  ∀ (s : State) (tag : Fin 65536) (x n key : Nat), s.m.resting = false →
    let p := s.m.map
    let held := s.m.mediaHeld
    (∀ g, p.work = [g] → g.tag = tag → g.grain = x → g.issued = true → g.landed = false → g.kind ≠ .zero →
      (s.m.allClosed g = false → exec (.landingComplete tag x) s = .next s) ∧
      (s.m.allClosed g = true → s.m.hq.cmds = [] → exec (.landingComplete tag x) s =
        .next (s.on { s.m with map := { p with work := [{ g with landed := true }], imgs := p.imgs ++ [g.img] } }))) ∧
    ((∀ g ∈ p.work, g.tag ≠ tag ∨ g.grain ≠ x) → exec (.landingComplete tag x) s = .next s ∧ exec (.mapUpdate tag x) s = .next s) ∧
    (∀ g, p.work = [g] → g.tag = tag → g.grain = x → g.landed = true → g.mapped = false → g.kind ≠ .zero → g.fine = false →
      (s.m.mayMap g = false → exec (.mapUpdate tag x) s = .next s) ∧
      (∀ st d, s.m.mayMap g = true → s.m.hq.cmds = [] → p.jopen = [] → s.m.mset? g.set = some st → st.key g.stripe g.pos = some d →
        let e := entryWord 5 { die := keyDie d, block := keyBlock d, page := d % 4096, off := g.off } 0
        ∃ m2 : Mach, exec (.mapUpdate tag x) s = .next (s.on m2) ∧ m2.entry false (coarseKey g.slice g.ns x) = e ∧
          (∀ j, j ≠ coarseKey g.slice g.ns x → m2.entry false j = s.m.entry false j) ∧ m2.map.jsn = p.jsn + 1 ∧
          m2.map.jopen = [{ jsn := p.jsn + 1, typ := 1, ns := g.ns, slice := g.slice, w1 := w64 x, w2 := e, w3 := w64 g.lsn }] ∧
          m2.map.work = [])) ∧
    (∀ st, s.m.mset? n = some st →
      let due := st.landing && st.state == .open_ && !(st.pos == 0 && st.off == 0) && decide (st.lastAt + 20000 ≤ s.m.tb) && !s.m.pwr.stop
      exec (.landingStripeTimeout n) s = (if due then .next (s.on (s.m.fillStripe n)) else .next s)) ∧
    (held = true → exec (.foldCommit x) s = .next s ∧ exec (.reclaim n) s = .next s ∧ exec .journalPageDurable s = .next s ∧
      exec (.checkpoint false key) s = .next s ∧ exec (.checkpoint true key) s = .next s) ∧
    (held = false →
      ((∀ g ∈ p.imgs, g.lsn ≠ x) → exec (.foldCommit x) s = .next s) ∧
      (∀ g v, p.imgs = [g] → g.lsn = x → p.moves = [v] → v.fine = g.fine → v.key = mapKey g.fine g.slice g.ns g.grain → v.from_ = g.set →
        v.jsn = 0 → s.m.committed v = true → p.jopen = [] →
        ∃ (m2 : Mach) (r : JRec), exec (.foldCommit x) s = .next (s.on m2) ∧ m2.map.jopen = [r] ∧ r.jsn = p.jsn + 1 ∧ r.typ = 4 ∧
          r.w2 = v.new_ ∧ r.w3 = v.old ∧ m2.map.moves = [{ v with jsn := p.jsn + 1 }] ∧ m2.map.coarse = p.coarse ∧ m2.map.fine = p.fine) ∧
      (s.m.mset? n = none → exec (.reclaim n) s = .next s) ∧
      (∀ st, s.m.mset? n = some st → st.state = .closed → st.landing = true →
        let left := st.members.filter fun b => s.m.dieUp b.1
        (s.m.mayErase n st = false → exec (.reclaim n) s = .next s) ∧
        (s.m.mayErase n st = true → left ≠ [] →
          ∃ m2 : Mach, exec (.reclaim n) s = .next (s.on m2) ∧ m2.mset? n = some { st with state := .erasing, victim := true, toErase := left } ∧
            (∀ b ∈ left, m2.erasing b.1 b.2 = true) ∧ m2.map.imgs = p.imgs.filter (fun g => g.set != n))) ∧
      (∀ st, s.m.mset? n = some st → st.state = .open_ ∨ st.state = .free ∨ st.state = .retired → exec (.reclaim n) s = .next s) ∧
      (p.jqueue = [] → exec .journalPageDurable s = .next s) ∧
      (∀ pg rest, p.jqueue = pg :: rest → p.ckptWait = [] → s.m.hq.cmds = [] →
        let last := (pg.recs.getLast?.map (·.jsn)).getD p.jsnDone
        (p.moves = [] → ∃ m2 : Mach, exec .journalPageDurable s = .next (s.on m2) ∧ m2.map.jqueue = rest ∧
          m2.map.jdone = p.jdone ++ [{ pg with stamp := s.m.tb }] ∧ m2.map.jsnDone = last ∧ m2.map.lwm = pg.lwm ∧ m2.map.coarse = p.coarse) ∧
        (∀ v, p.moves = [v] → v.jsn ≠ 0 → v.jsn ≤ last → ∃ m2 : Mach, exec .journalPageDurable s = .next (s.on m2) ∧ m2.map.moves = [] ∧
          m2.map.jsnDone = last ∧ (s.m.entry v.fine v.key = v.old → m2.entry v.fine v.key = v.new_) ∧
          (s.m.entry v.fine v.key ≠ v.old → m2.entry v.fine v.key = s.m.entry v.fine v.key))) ∧
      (p.cold.contains key = true → exec (.checkpoint false key) s = .next s) ∧
      (p.cold.contains key = false → p.moves = [] →
        ∃ (m2 : Mach) (c : CkptWait), exec (.checkpoint false key) s = .next (s.on m2) ∧ m2.map.ckptWait = p.ckptWait ++ [c] ∧
          m2.map.jsn = p.jsn + 1 ∧ c.jsn = p.jsn + 1 ∧ c.seg = false ∧ c.key = key ∧ c.ckpt.jsn = p.jsn ∧
          c.ckpt.entries = p.coarse.filter (fun e => e.1 / 256 == key))) ∧
    (p.jopen = [] ∨ s.m.tb < p.jopenAt + 5000000 → exec .journalPageTimeout s = .next s) ∧
    (p.jopen ≠ [] → p.jopenAt + 5000000 ≤ s.m.tb → exec .journalPageTimeout s = .next (s.on { s.m with
      map := { p with jopen := [], jqueue := p.jqueue ++ [{ recs := p.jopen, lwm := s.m.lowWater, stamp := s.m.tb, boot := p.boot }] } })) ∧
    (let q := { p with cold := p.cold.filter (· != key), bad := p.bad.filter fun k => k / 256 != key }
     ((∀ e ∈ p.coarse, e.1 / 256 = key → entryOk e.2 = true) →
       (q.cold ≠ [] → exec (.mapPageLoad false key) s = .next (s.on { s.m with map := q })) ∧
       (q.cold = [] → p.cold ≠ [] → p.coldSeg = [] → p.mount = 5 →
         ∃ m2 : Mach, exec (.mapPageLoad false key) s = .next (s.on m2) ∧ m2.map = { q with resident := true } ∧ s.m.counted m2 1013)) ∧
     (∀ e, p.coarse = [e] → e.1 / 256 = key → entryOk e.2 = false → q.cold ≠ [] →
       ∃ m2 : Mach, exec (.mapPageLoad false key) s = .next (s.on m2) ∧ m2.map = q ∧ m2.pwr.stop = true ∧ m2.pwr.alarmEvt.getLsbD 0 = true))

/-- The mount runs once in a boot, out of limp mode, while nothing holds media writes: the map is recovered, READY is set, and an
uncommissioned module begins at boot 1. Seals are lifted by rings 0 and 1 with a SEAL record and event 1009, but none of a namespace at
its limit, nor the module's without spare. A sweep starts with event 1010, by command, or when the first MAP_TIME tells of 7 days without
power, or comes not within 60 s; it visits its sets and ends with event 1011 (R337, R346 to R350, R364). -/
def Obligations.MediaUpkeep : Prop :=
  ∀ (s : State) (w : Who) (v : W64) (sl : Fin 256) (ns : Fin 16) (facts : List DieFact) (rates : List (Nat × Nat)) (n bits : Nat),
    s.m.resting = false →
    let p := s.m.map
    let k := nsKey sl ns
    let lifts := exec (.unsealNs w sl ns) s
    (s.m.booted = false ∨ s.m.fwa.limp = true ∨ p.mount ≠ 0 ∨ s.m.mediaHeld = true → exec (.mount facts rates) s = .next s) ∧
    (s.m.booted = true → s.m.fwa.limp = false → p.mount = 0 → s.m.mediaHeld = false →
      ∃ m2 : Mach, exec (.mount facts rates) s = .next (s.on m2) ∧ m2.map.mount = 5 ∧ m2.hq.ready = true ∧
        m2.map.resident = (m2.map.cold.isEmpty && m2.map.coldSeg.isEmpty) ∧
        (p.rooted = false → m2.map.rooted = true ∧ m2.map.boot = 1 ∧ m2.map.sets = [] ∧ m2.map.coarse = [])) ∧
    (w.low = true →
      (s.m.atLimit sl ns = false → p.seals.contains k = false → lifts = .next (s.on (s.m.answer .done))) ∧
      (s.m.atLimit sl ns = false → p.seals.contains k = true →
        ∃ m2 : Mach, lifts = .next (s.on (m2.answer .done)) ∧ m2.map.seals = p.seals.filter (· != k) ∧ m2.map.jsn = p.jsn + 1 ∧
          m2.map.modSeal = p.modSeal ∧ s.m.counted m2 1009) ∧
      (s.m.atLimit sl ns = true → ∃ m2 : Mach, lifts = .next (s.on (m2.answer .done)) ∧ m2.map = p ∧ s.m.counted m2 993) ∧
      (s.m.spare ≠ 0 → p.modSeal = true →
        ∃ m2 : Mach, exec (.unsealModule w) s = .next (s.on (m2.answer .done)) ∧ m2.map.modSeal = false ∧ m2.map.seals = p.seals ∧
          m2.map.jsn = p.jsn + 1 ∧ s.m.counted m2 1009) ∧
      (s.m.spare = 0 → ∃ m2 : Mach, exec (.unsealModule w) s = .next (s.on (m2.answer .done)) ∧ m2.map = p ∧ s.m.counted m2 993) ∧
      (s.m.sweepList ≠ [] →
        ∃ m2 : Mach, exec (.sweep w) s = .next (s.on (m2.answer .done)) ∧ s.m.counted m2 1010 ∧
          m2.map = { p with sweep := some { todo := s.m.sweepList }, sweepSets := 0, sweepRefr := 0 }) ∧
      (s.m.sweepList = [] →
        ∃ m2 : Mach, exec (.sweep w) s = .next (s.on (m2.answer .done)) ∧ s.m.counted m2 1010 ∧ s.m.counted m2 1011 ∧
          m2.map = { p with sweep := none, sweepSets := 0, sweepRefr := 0 }) ∧
      (p.timeSet = true →
        ∃ m2 : Mach, exec (.mapTimeWrite w v) s = .next (s.on (m2.answer .done)) ∧ m2.map.time = v ∧ m2.map.timeSet = true ∧
          m2.map.timeRec = some (s.m.tb, v.toNat) ∧ m2.map.jsn = p.jsn + 1 ∧ m2.map.sweep = p.sweep) ∧
      (p.timeSet = false → p.timeRec = none → s.m.sweepList ≠ [] →
        ∃ m2 : Mach, exec (.mapTimeWrite w v) s = .next (s.on (m2.answer .done)) ∧ m2.map.time = v ∧ m2.map.timeSet = true ∧
          m2.map.sweep = some { todo := s.m.sweepList } ∧ s.m.counted m2 1010)) ∧
    (w.ring = .r2 → lifts = .next (s.on (s.m.answer (.denied 2))) ∧ exec (.unsealModule w) s = .next (s.on (s.m.answer (.denied 2))) ∧
      exec (.sweep w) s = .next (s.on (s.m.answer (.denied 2))) ∧ exec (.mapTimeWrite w v) s = .next (s.on (s.m.answer (.denied 2)))) ∧
    (s.m.tb < 6000000000 ∨ p.timeSet = true ∨ p.timeDue = true ∨ p.mount ≠ 5 → exec .mapTimeTimeout s = .next s) ∧
    (6000000000 ≤ s.m.tb → p.timeSet = false → p.timeDue = false → p.mount = 5 → s.m.sweepList ≠ [] →
      ∃ m2 : Mach, exec .mapTimeTimeout s = .next (s.on m2) ∧ s.m.counted m2 1010 ∧
        m2.map = { p with timeDue := true, sweep := some { todo := s.m.sweepList }, sweepSets := 0, sweepRefr := 0 }) ∧
    (p.sweep = none → exec (.retentionSweep n bits false) s = .next s) ∧
    (∀ t, p.sweep = some t →
      let left := t.todo.filter (· != n)
      (t.todo.contains n = false → exec (.retentionSweep n bits false) s = .next s) ∧
      (t.todo.contains n = true → bits ≤ p.retBits → left ≠ [] → exec (.retentionSweep n bits false) s = .next (s.on { s.m with
        map := { p with sweep := some { todo := left }, sweepSets := sat (2 ^ 32 - 1) (p.sweepSets + 1) } })) ∧
      (t.todo.contains n = true → bits ≤ p.retBits → left = [] →
        ∃ m2 : Mach, exec (.retentionSweep n bits false) s = .next (s.on m2) ∧ s.m.counted m2 1011 ∧
          m2.map = { p with sweep := none, sweepSets := sat (2 ^ 32 - 1) (p.sweepSets + 1) }))

/-! ## Flash channels (R74, R356 to R386) -/

/-- The scheduler issues the chosen operation of a die that is ready for its tokens; a status read that finds the die ready returns them
and ends the operation: a page for its command, a verified program, erased blocks and at last a FREE set, a counted failure; after a Reset
LUN it issues once more. An overdue operation is reset, the second time its die fails, as it does 100 ms after a reset (R357, R366 to
R370, R384, R385, R597). An erase that has run its least time is suspended for a waiting read, and goes on when enough reads have passed
it or none waits. A group of VCCQ_OUT reports an overcurrent, and one that is LOW for 100 ms goes off with its dies until the next mount.
A larger pool gives tokens at once, a smaller one claims them as they are free (R74, R359, R370, R373 to R376). -/
def Obligations.FlashChannels : Prop :=
  (∀ (s : State) (d : Fin 1536) (fail : Bool) (dec : Fin 6), s.m.resting = false →
    let x := s.m.die d
    let ch := chanOf d
    let l := s.m.ledger 9
    (s.m.unsound (.tokens d) = true →
      ∃ m2 : Mach, exec (.nandOpIssue d) s = .next (s.on m2) ∧ m2.die d = { x with tokBad := true } ∧ m2.pwr.alarmEvt.getLsbD 7 = true) ∧
    (s.m.unsound (.tokens d) = false →
      (s.m.dieReady d = false ∨ s.m.nandChoice d = none → exec (.nandOpIssue d) s = .next s) ∧
      (∀ i op, s.m.dieReady d = true → s.m.nandChoice d = some (i, op) →
        let ops := if x.susp.isSome then [op] else combined (Nat.max 1 x.planes) [op] ((x.queue.take 64).drop (i + 1))
        let cap := match op.slice with
          | some k => Nat.min l.total (s.m.tokCap k)
          | none => l.total
        let n := Nat.min (op.kind.cost * ops.length) cap
        (l.free < n → exec (.nandOpIssue d) s = .next s) ∧
        (n ≤ l.free → ∃ m2 : Mach, exec (.nandOpIssue d) s = .next (s.on m2) ∧
          (m2.die d).cur = some { op := op, more := ops.drop 1, from_ := s.m.tb, tokens := n, again := false } ∧
          (m2.die d).queue = x.queue.take i ++ x.queue.drop (i + ops.length) ∧ (m2.ledger 9).free = l.free - n ∧
          (m2.ledger 9).held = l.held + n ∧ (∀ j, j ≠ d.val → m2.die j = s.m.die j)))) ∧
    (x.cur = none → exec (.nandStatusRead d fail dec) s = .next (s.on (s.m.setDie d { x with tokBad := false })) ∧
      exec (.nandOpTimeout d) s = .next s) ∧
    (∀ c, x.cur = some c →
      let k := pageKey d c.op.block c.op.page
      (∀ t, x.resetAt = some t →
        ∃ m2 : Mach, exec (.nandStatusRead d fail dec) s = .next (s.on m2) ∧ (m2.die d).resetAt = none ∧
          ∃ c2, (m2.die d).cur = some c2 ∧ c2.op = c.op ∧ c2.more = c.more ∧ c2.again = true ∧ c2.from_ = s.m.tb ∧ c2.tokens ≤ c.tokens) ∧
      (x.resetAt = none → c.more = [] →
        (∀ t, c.op.kind = .read → c.op.why = .cmd t → dec.val ≤ 1 →
          ∃ m2 : Mach, exec (.nandStatusRead d fail dec) s = .next (s.on m2) ∧ (m2.die d).cur = none ∧
            m2.fch.got = s.m.fch.got ++ [{ tag := t, page := k, data := s.m.page? k }] ∧ (m2.ledger 9).held = l.held - c.tokens) ∧
        (∀ pg, c.op.kind = .slcProgram → tget? s.m.fch.pages k = some pg →
          ∃ m2 : Mach, exec (.nandStatusRead d false dec) s = .next (s.on m2) ∧ (m2.die d).cur = none ∧
            tget? m2.fch.pages k = some { pg with verified := true } ∧ (m2.ledger 9).held = l.held - c.tokens) ∧
        (c.op.kind = .slcProgram →
          ∃ m2 : Mach, exec (.nandStatusRead d true dec) s = .next (s.on m2) ∧ (m2.chan ch).pfail = up16 (s.m.chan ch).pfail ∧
            (m2.ledger 9).held = l.held - c.tokens) ∧
        (∀ n st, c.op.kind = .erase → c.op.why = .erase n → s.m.mset? n = some st → st.state = .erasing → st.toErase = [(d.val, c.op.block)] →
          (∀ b ∈ st.members, s.m.defective b.1 b.2 = false) →
          ∃ m2 : Mach, exec (.nandStatusRead d false dec) s = .next (s.on m2) ∧ (m2.die d).cur = none ∧
            (∀ i, i < 4096 → tget? m2.fch.pages (pageKey d c.op.block i) = none) ∧
            m2.mset? n = some { st with state := .free, toErase := [] })) ∧
      (x.resetAt = none → c.from_ + x.busy c.op.kind ≤ s.m.tb →
        (c.again = false → ∃ m2 : Mach, exec (.nandOpTimeout d) s = .next (s.on m2) ∧ m2.die d = { x with resetAt := some s.m.tb } ∧
          (m2.chan ch).timeout = up16 (s.m.chan ch).timeout ∧ s.m.counted m2 (130 + 4 * ch)) ∧
        (c.again = true → ∃ m2 : Mach, exec (.nandOpTimeout d) s = .next (s.on m2) ∧ (m2.die d).state = .failed)) ∧
      (s.m.tb < c.from_ + x.busy c.op.kind → exec (.nandOpTimeout d) s = .next s)) ∧
    (x.resetAt = none → exec (.resetLunTimeout d) s = .next s) ∧
    (∀ t, x.resetAt = some t →
      (s.m.tb < t + 10000000 → exec (.resetLunTimeout d) s = .next s) ∧
      (t + 10000000 ≤ s.m.tb → exec (.resetLunTimeout d) s = .next (s.on (s.m.failDie d)) ∧ ((s.m.failDie d).die d).state = .failed))) ∧
  (∀ (s : State) (d : Fin 1536) (q : Fin 4) (ma : BitVec 16) (w : Who) (n : Nat), s.m.resting = false →
    let x := s.m.die d
    let v := s.m.vccq q
    let f := s.m.fch
    let l := s.m.ledger 9
    (∀ c, x.cur = some c → c.op.kind = .erase → x.canSusp = true → x.susp = none → x.resetAt = none → x.readWaits = true → x.suspN < f.maxSusp →
      c.from_ + f.minRun ≤ s.m.tb →
      exec (.eraseSuspend d true) s = .next (s.on (s.m.setDie d { x with cur := none, susp := some c, suspN := x.suspN + 1, past := 0 })) ∧
      exec (.eraseSuspend d false) s = .next s) ∧
    (x.cur = none ∨ x.canSusp = false ∨ x.readWaits = false → exec (.eraseSuspend d true) s = .next s) ∧
    (∀ c, x.susp = some c → x.cur = none →
      (f.maxReads ≤ x.past ∨ x.readWaits = false → s.m.inhibited = false → s.m.pwr.stop = false →
        exec (.eraseResume d) s = .next (s.on (s.m.setDie d { x with susp := none, cur := some { c with from_ := s.m.tb } }))) ∧
      (x.past < f.maxReads → x.readWaits = true → exec (.eraseResume d) s = .next s)) ∧
    (x.susp = none → exec (.eraseResume d) s = .next s) ∧
    (v.en = true → 1500 < ma.toNat → exec (.vccqOvercurrent q ma) s =
      .next (s.on ((s.m.setVccq q { v with overcur := true, ma := Nat.min 2000 ma.toNat }).raise (20 + q)))) ∧
    (v.en = false ∨ ma.toNat ≤ 1500 → exec (.vccqOvercurrent q ma) s = .next s) ∧
    (v.en = true → exec (.vccqLow q ma) s =
      .next (s.on (s.m.setVccq q { v with low := true, ma := ma.toNat, lowAt := if v.low then v.lowAt else s.m.tb }))) ∧
    (v.en = false → exec (.vccqLow q ma) s = .next s) ∧
    (v.low = true → v.off = false → v.lowAt + 10000000 ≤ s.m.tb →
      ∃ m2 : Mach, exec (.vccqLowTimeout q) s = .next (s.on m2) ∧ m2.vccq q = { v with off := true, en := false } ∧
        (∀ j, j < 384 → (s.m.die (384 * q + j)).state = .inService → (m2.die (384 * q + j)).state = .unavailable)) ∧
    (v.low = false ∨ v.off = true ∨ s.m.tb < v.lowAt + 10000000 → exec (.vccqLowTimeout q) s = .next s) ∧
    (v.off = false → exec (.vccqOutRecover q ma) s = .next (s.on (s.m.setVccq q { v with low := false, ma := ma.toNat }))) ∧
    (v.off = true → exec (.vccqOutRecover q ma) s = .next s) ∧
    (w.low = true → 0 < n → n < 65536 → f.debt = 0 →
      ∃ m2 : Mach, exec (.fchPtokPoolWrite w (w64 n)) s = .next (s.on (m2.answer .done)) ∧ m2.fch.pool = n ∧
        (f.pool ≤ n → (m2.ledger 9).free = l.free + (n - f.pool) ∧ (m2.ledger 9).total = l.total + (n - f.pool) ∧ m2.fch.debt = 0) ∧
        (n < f.pool → f.pool - n ≤ l.free → (m2.ledger 9).free = l.free - (f.pool - n) ∧ (m2.ledger 9).total = l.total - (f.pool - n) ∧
          m2.fch.debt = 0) ∧
        (n < f.pool → l.free < f.pool - n → (m2.ledger 9).free = 0 ∧ (m2.ledger 9).total = l.total - l.free ∧
          m2.fch.debt = f.pool - n - l.free)) ∧
    (w.low = true → ∃ m2 : Mach, exec (.fchPtokPoolWrite w 0) s = .next (s.on (m2.answer .done)) ∧ m2.fch = f ∧ s.m.counted m2 993) ∧
    (w.ring = .r2 → exec (.fchPtokPoolWrite w (w64 n)) s = .next (s.on (s.m.answer (.denied 2)))))

/-! ## Engines (R97, R160 to R165, R393 to R484) -/

/-- A row of an engine runs the first job of its context that has not completed, if it is of the row's function and still to run, and does
nothing otherwise. A port's copy that fails its complement ends the job with INTEGRITY-ALARM and alarm 3; a field that breaks its rule
ends it with INVALID-FIELD and the field's offset, before it reads anything. Completion makes the job complete for its submitter: a
waiting one becomes READY with the completion word. OFFLINE is ring 0's, with the engine's event 4 (R162, R163, R165, R409, R415, R421,
R429, R441, R472). -/
def Obligations.EngineJobs : Prop :=
  ∀ (s : State) (ctx : Fin 16) (e : Fin 8) (q : Fin 4) (fault : Option Nat) (w : Who) (v : BitVec 1), s.m.resting = false →
    (∀ r, r ∈ [(Instr.compress e ctx fault, 0x10 + e.val, 1), (.decompress e ctx, 0x10 + e.val, 2), (.validate e ctx, 0x10 + e.val, 3),
        (.xtsEncrypt q ctx fault, 0x20 + q.val, 1), (.xtsDecrypt q ctx fault, 0x20 + q.val, 2), (.gcmEncrypt q ctx fault, 0x20 + q.val, 3),
        (.gcmDecrypt q ctx fault, 0x20 + q.val, 4), (.search ctx, 0x30, 1), (.insert ctx, 0x30, 2), (.winnowDelete ctx, 0x30, 3),
        (.winnowClear ctx, 0x30, 4)] →
      (s.m.toRun r.2.1 ctx r.2.2 = none → (∀ j, s.m.headJob r.2.1 ctx = some j → j.state ≠ .reserved) → exec r.1 s = .next s) ∧
      (∀ j, s.m.toRun r.2.1 ctx r.2.2 = some j → j.descOk = false →
        exec r.1 s = .next (s.on ((s.m.jobRan r.2.1 j 0x0304 0).alarm 3 r.2.1))) ∧
      (∀ j o, s.m.toRun r.2.1 ctx r.2.2 = some j → j.descOk = true → s.m.jobBad r.2.1 j = some o →
        exec r.1 s = .next (s.on (s.m.jobRan r.2.1 j 0x0101 o)))) ∧
    (∀ (p : BitVec 8),
      (s.m.engOn = false ∨ s.m.headJob p.toNat ctx = none → exec (.engineJobComplete p ctx) s = .next s) ∧
      (∀ j, s.m.engOn = true → s.m.headJob p.toNat ctx = some j → j.state = .ran →
        exec (.engineJobComplete p ctx) s = .next (s.on (s.m.completeJob p.toNat j)) ∧
        (j.event = false → j.status = 0 → j.faulty = false → (∀ x ∈ (s.m.engine p.toNat).jobs, x.finished = false) → j.accepted = false →
          let t := s.m.thr j.tcb
          let word := at_ 16 j.result ||| at_ 0 j.status
          (t.deleting = false → t.state ≠ .waiting →
            ((s.m.completeJob p.toNat j).engine p.toNat).jobs = (s.m.engine p.toNat).jobs.map fun x =>
              if x.ctx = j.ctx ∧ x.num = j.num then { j with state := .complete, evDone := true } else x) ∧
          (t.state = .waiting → t.waitKind = .jobWait → t.waitOn = jobHandle p.toNat j.ctx j.num → s.m.readyHeld j.tcb = false →
            t.stopPend = false → (∀ x ∈ s.m.sch.thrs, x.2.deleting = false) → s.m.entriesUsed + t.groups.length ≤ s.m.sch.pool →
            (∀ l, slotLedger p.toNat = some l → (s.m.ledger l).sealed = true) →
            ((s.m.completeJob p.toNat j).thr j.tcb).state = .ready ∧ ((s.m.completeJob p.toNat j).thr j.tcb).wake = .value word ∧
            ((s.m.completeJob p.toNat j).engine p.toNat).jobs =
              (s.m.engine p.toNat).jobs.filter fun x => !decide (x.ctx = j.ctx ∧ x.num = j.num))))) ∧
    (∀ r, r ∈ [(Instr.grtOfflineWrite w e (v.setWidth 64), 0x10 + e.val), (.cphOfflineWrite w q (v.setWidth 64), 0x20 + q.val)] →
      (w.ring = .r0 → ∃ m2 : Mach, exec r.1 s = .next (s.on (m2.answer .done)) ∧ (m2.engine r.2).offline = (v == 1) ∧
        (m2.engine r.2).jobs = (s.m.engine r.2).jobs ∧
        (v = 1 → (s.m.engine r.2).offline = false → s.m.counted m2 (portEvent r.2 + 4)) ∧
        (v = 0 → m2 = s.m.setEngine r.2 { s.m.engine r.2 with offline := false })) ∧
      (w.ring ≠ .r0 → exec r.1 s = .next (s.on (s.m.answer (.denied 2)))))

/-- COMPRESS writes the frame of its input block by block and ends with its length; a frame that would pass its limit ends with 0x0400 at
the bytes written, a block that the checker path finds different with 0x0401 and the offset of that block. DECOMPRESS writes the frame's
content and VALIDATE writes nothing; both end with what decoding the frame found. A failing read of the source is a BUS-ERROR at its
offset (R406, R410 to R415). -/
def Obligations.GroatJobs : Prop :=
  ∀ (s : State) (ctx : Fin 16) (e : Fin 8) (j : Job) (m1 m2 : Mach) (got : List Byte) (off : Nat), s.m.resting = false → j.descOk = true →
    s.m.jobBad (0x10 + e) j = none →
    let slen := j.f 0x20 4
    let dst := j.f 0x18 8
    let dlim := j.f 0x24 4
    let g := GParam.of (j.f 0x28 1) (j.f 0x2A 2) (j.f 0x2C 2)
    (s.m.toRun (0x10 + e) ctx 1 = some j →
      (s.m.engRead j (j.f 0x10 8) slen = (m1, got, .ok ()) → got.length = slen →
        (Mach.engWrite j dst dlim (g.pieces got) 0 m1 = (m2, off, none) →
          exec (.compress e ctx none) s = .next (s.on (m2.jobRan (0x10 + e) { j with read := slen } 0 off))) ∧
        (Mach.engWrite j dst dlim (g.pieces got) 0 m1 = (m2, off, some none) →
          exec (.compress e ctx none) s = .next (s.on (m2.jobRan (0x10 + e) { j with read := slen } 0x0400 off))) ∧
        (∀ i b, (g.blocks got.toArray)[i]? = some b → checkedBlock b = true →
          Mach.engWrite j dst dlim ((g.pieces got).take i) 0 m1 = (m2, off, none) →
          exec (.compress e ctx (some i)) s =
            .next (s.on (m2.jobRan (0x10 + e) { j with read := Nat.min slen (4096 * (i + 1)) } 0x0401 (4096 * i))))) ∧
      (∀ x, s.m.engRead j (j.f 0x10 8) slen = (m1, got, .bad x) → got.length < slen →
        Mach.engWrite j dst dlim ((g.pieces (got.take (4096 * (got.length / 4096)))).take (got.length / 4096)) 0 m1 = (m2, off, none) →
        exec (.compress e ctx none) s = .next (s.on (m2.jobRan (0x10 + e) { j with read := got.length } 0x0409 x))) ∧
      (s.m.engRead j (j.f 0x10 8) slen = (m1, got, .wait) → exec (.compress e ctx none) s = .next s)) ∧
    (s.m.toRun (0x10 + e) ctx 2 = some j → s.m.engRead j (j.f 0x10 8) slen = (m1, got, .ok ()) → got.length = slen →
      let d := decodeFrame got true (some dlim)
      let j1 := { j with read := slen, faulty := d.faulty }
      Mach.engWrite j dst dlim (chunks 4096 d.out) 0 m1 = (m2, off, none) →
        exec (.decompress e ctx) s = .next (s.on (if d.status = 0 ∨ d.status = 0x0400 ∨ d.status = 0x0409
          then m2.jobRan (0x10 + e) j1 d.status d.off else m2.jobRan (0x10 + e) j1 d.status (2 ^ 32 * (off / 4096) + d.off)))) ∧
    (s.m.toRun (0x10 + e) ctx 3 = some j → s.m.engRead j (j.f 0x10 8) slen = (m1, got, .ok ()) → got.length = slen →
      let d := decodeFrame got true none
      exec (.validate e ctx) s = .next (s.on (m1.jobRan (0x10 + e) { j with read := slen, faulty := d.faulty } d.status d.off)))

/-- XTS and GCM jobs copy their keys, read their range and write the ciphertext or plaintext of the whole of it; GCM-ENCRYPT stores the
tag last. A key that the job may not use ends it before any read; a segment whose check differs ends it with 0x0407 and event 10 with the
segments before it written. A GCM decryption keeps its plaintext in quarantine: it waits with event 3 when the buffers do not stand, moves
only after its tag has compared equal, and a tag that differs writes no plaintext (R66, R424, R425, R430 to R437). -/
def Obligations.CipherJobs : Prop :=
  ∀ (s : State) (ctx : Fin 16) (q : Fin 4) (j : Job) (m1 m2 m3 m4 m5 : Mach) (k1 k2 : BitVec 256) (data aad tag : List Byte) (off i : Nat),
    s.m.resting = false →
    let p := 0x20 + q.val
    let n := j.f 0x20 4
    let slot := j.f 0x24 2
    let src := j.f 0x10 8
    let dst := j.f 0x18 8
    let ok := fun (fn : Nat) => s.m.toRun p ctx fn = some j ∧ j.descOk = true ∧ s.m.jobBad p j = none
    (∀ r, r ∈ [(true, 1), (false, 2)] → ok r.2 →
      let row := fun fault => if r.1 then Instr.xtsEncrypt q ctx fault else Instr.xtsDecrypt q ctx fault
      (∀ st, s.m.jobKey j slot .xts1 = (m1, .error st) → exec (row none) s = .next (s.on (m1.jobRan p j st (if st = 0x0105 then 0x24 else 0)))) ∧
      (s.m.jobKey j slot .xts1 = (m1, .ok k1) → m1.jobKey j (slot + 1) .xts2 = (m2, .ok k2) → m2.engRead j src n = (m3, data, .ok ()) →
        data.length = n →
        (Mach.engWrite j dst n (chunks 4096 (xts r.1 k1 k2 (j.f 0x26 2) (j.f 0x28 16) data)) 0 m3 = (m4, off, none) →
          exec (row none) s = .next (s.on (m4.jobRan p { j with read := n } 0 n))) ∧
        (4096 * i < n →
          Mach.engWrite j dst n (chunks 4096 (xts r.1 k1 k2 (j.f 0x26 2) (j.f 0x28 16) (data.take (4096 * i)))) 0 m3 = (m4, off, none) →
          exec (row (some i)) s = .next (s.on ((m4.jobRan p { j with read := n } 0x0407 (4096 * i)).alarm 10 p))))) ∧
    (ok 3 → s.m.jobKey j slot .general = (m1, .ok k1) → m1.engRead j (j.f 0x38 8) (j.f 0x40 4) = (m2, aad, .ok ()) →
      m2.engRead j src n = (m3, data, .ok ()) → data.length = n →
      let out := gcmCrypt k1 j.iv data
      Mach.engWrite j dst n (chunks 4096 out) 0 m3 = (m4, off, none) → m4.engCan j (j.f 0x48 8) 16 = .ok () →
      exec (.gcmEncrypt q ctx none) s =
        .next (s.on ((m4.storeMem (j.f 0x48 8) (gcmTag k1 j.iv aad out)).jobRan p { j with read := aad.length + n } 0 n))) ∧
    (ok 4 → s.m.jobKey j slot .general = (m1, .ok k1) → m1.quarReserve p { j with key := k1 } = none →
      ∃ m6 : Mach, exec (.gcmDecrypt q ctx none) s = .next (s.on m6) ∧ m6.mem = m1.mem ∧ (m6.engine p).err2 = up16 (m1.engine p).err2 ∧
        (m6.engine p).jobs = (m1.engine p).jobs.map (fun x => if x.ctx = j.ctx ∧ x.num = j.num then { j with key := k1, state := .reserving } else x) ∧
        m1.counted m6 (576 + 8 * q + 3)) ∧
    (s.m.headJob p ctx = some j → j.state = .reserved → s.m.engOn = true → s.m.engRead j (j.f 0x38 8) (j.f 0x40 4) = (m1, aad, .ok ()) →
      m1.engRead j src n = (m2, data, .ok ()) → data.length = n → m2.engRead j (j.f 0x48 8) 16 = (m3, tag, .ok ()) →
      let j1 := { j with read := aad.length + n }
      (tag = gcmTag j.key j.iv aad data → j.qbufs ≠ [] →
        exec (.gcmDecrypt q ctx none) s =
          .next (s.on ((m3.quarFill j.qbufs (chunks 4096 (gcmCrypt j.key j.iv data))).setJob p { j1 with state := .moving }))) ∧
      (tag ≠ gcmTag j.key j.iv aad data → exec (.gcmDecrypt q ctx none) s = .next (s.on ((m3.dropQuar p j1).jobRan p j1 0x0406 0)))) ∧
    (s.m.headJob p ctx = some j → j.state = .reserving →
      (s.m.quarReserve p j = some m5 → exec (.quarantineReserve q ctx) s = .next (s.on m5)) ∧
      (s.m.quarReserve p j = none → exec (.quarantineReserve q ctx) s = .next s)) ∧
    (s.m.headJob p ctx = some j → j.state = .moving →
      (∀ k, j.qbufs[j.moved]? = some k →
        let c := j.f 0x44 1
        ((s.m.cls c).ceil ≤ (s.m.cls c).held → exec (.quarantineMove q ctx) s = .next s) ∧
        ((s.m.cls c).held < (s.m.cls c).ceil → j.moved + 1 < j.qbufs.length →
          exec (.quarantineMove q ctx) s = .next (s.on (((((s.m.classDown 6).classUp c).setBuf k { s.m.buf k with owner := j.owner, cls := c }).give
            8 4096).setJob p { j with moved := j.moved + 1 }))))) ∧
    (s.m.headJob p ctx = none → exec (.quarantineReserve q ctx) s = .next s ∧ exec (.quarantineMove q ctx) s = .next s)

/-- A SEARCH selects the row of the largest PRIO among those of its table whose bounds hold the key, of equal ones the first in region
order, and writes its result word for every key; INSERT is refused only where every segment has but its hole left; DELETE and CLEAR take
out exactly the rows they name, and no others. A slice that the job may not search ends it before any read (R464 to R469, R473). -/
def Obligations.WinnowJobs : Prop :=
  (∀ (m : Mach) (k table : Nat) (key : W64),
    let hit := ((m.regionRows k).map (·.2)).filter fun r => r.table == table && r.lower.ule key && key.ule r.upper
    (m.winnow k key table = none ↔ hit = []) ∧
    (∀ r, m.winnow k key table = some r → ∃ a b, hit = a ++ r :: b ∧ (∀ x ∈ a, x.prio < r.prio) ∧ (∀ x ∈ b, x.prio ≤ r.prio))) ∧
  (∀ (m : Mach) (k : Nat) (w : WRow), m.winnowInsert k w = none ↔ ∀ g ∈ m.region k, 15 ≤ m.segCount g) ∧
  (∀ (s : State) (ctx : Fin 16) (j : Job) (m1 m2 : Mach) (got : List Byte) (n : Nat), s.m.resting = false → j.descOk = true →
    s.m.jobBad 0x30 j = none →
    let k := j.f 0x25 1
    let src := j.f 0x10 8
    (∀ r, r ∈ [(Instr.search ctx, 1), (.insert ctx, 2), (.winnowDelete ctx, 3), (.winnowClear ctx, 4)] → s.m.toRun 0x30 ctx r.2 = some j →
      (j.ring = .r2 → k ≠ j.slice → exec r.1 s = .next (s.on (s.m.jobRan 0x30 j 0x0105 0x25))) ∧
      (j.ring ≠ .r2 → (s.m.slice k).state ≠ .live → exec r.1 s = .next (s.on (s.m.jobRan 0x30 j 0x0101 0x25)))) ∧
    (s.m.winnowSlice j = none →
      (s.m.toRun 0x30 ctx 1 = some j → s.m.engWaits (j.f 0x18 8) (8 * j.f 0x20 4) = false →
        s.m.engRead j src (8 * j.f 0x20 4) = (m1, got, .ok ()) → got.length = 8 * j.f 0x20 4 →
        (Job.items j j.searchItem (chunks 8 got) 0 m1 0 = .ok (m2, n) → exec (.search ctx) s = .next (s.on (m2.jobRan 0x30 j 0 n))) ∧
        (∀ i b, m1.winnowBad k i = none →
          let a := j.f 0x18 8 + 8 * i
          let r := m1.winnow k (w64 (leNat b)) (j.f 0x24 1)
          let m3 : Mach := { m1 with wnw := { m1.wnw with searches := sat (2 ^ 64 - 1) (m1.wnw.searches + 1) } }
          m3.engCan j a 8 = .ok () →
          j.searchItem i b m1 n = .ok (m3.storeMem a (leBytes 8 (resultWord r).toNat), if r.isSome then n + 1 else n))) ∧
      (s.m.toRun 0x30 ctx 2 = some j → s.m.engRead j src (32 * j.f 0x20 4) = (m1, got, .ok ()) → got.length = 32 * j.f 0x20 4 →
        (Job.items j j.insertItem (chunks 32 got) 0 m1 0 = .ok (m2, n) → exec (.insert ctx) s = .next (s.on (m2.jobRan 0x30 j 0 n))) ∧
        (Job.items j j.insertItem (chunks 32 got) 0 m1 0 = .error (m2, 0x0400, n) →
          exec (.insert ctx) s = .next (s.on (m2.jobRan 0x30 j 0x0400 n)))) ∧
      (s.m.toRun 0x30 ctx 3 = some j → s.m.engRead j src (16 * j.f 0x20 4) = (m1, got, .ok ()) → got.length = 16 * j.f 0x20 4 →
        (∀ i b (m3 : Mach), m3.winnowBad k i = none → ∃ (m4 : Mach) (c : Nat), j.deleteItem i b m3 n = .ok (m4, n + c) ∧ m4.mem = m3.mem ∧
          m4.wnw.rows = m3.wnw.rows.filter (fun r => !((m3.region k).contains (r.1 / 16) && r.2.table == j.f 0x24 1 &&
            r.2.lower == w64 (leAt b 0 8) && r.2.upper == w64 (leAt b 8 8)))) ∧
        (Job.items j j.deleteItem (chunks 16 got) 0 m1 0 = .ok (m2, n) → exec (.winnowDelete ctx) s = .next (s.on (m2.jobRan 0x30 j 0 n)))) ∧
      (s.m.toRun 0x30 ctx 4 = some j → s.m.winnowBad k 0 = none →
        ∃ m3 : Mach, exec (.winnowClear ctx) s = .next (s.on m3) ∧ m3.mem = s.m.mem ∧
          m3.wnw.rows = s.m.wnw.rows.filter (fun r => !((s.m.region k).contains (r.1 / 16) && r.2.table == j.f 0x24 1)) ∧
          m3.wnw.updates = sat (2 ^ 64 - 1) (s.m.wnw.updates + 1))))

/-! ## Memory upkeep and DRAM (R517 to R556) -/

/-- Three ascending misses let the prefetcher of the thread's sheaf take the lines that follow in the page; a cache's oldest evicted line
lands in memory. GO starts the scrubber over a range of one memory, STOP halts it with event 683, each read takes 64 B at the commanded
pace, corrects in REPAIR, and ends with event 682; 1 to ECC_CTL clears the chaff table. Any other command is a reserved encoding, and ring
2 is refused (R517, R519, R529 to R533). -/
def Obligations.MemoryUpkeep : Prop :=
  ∀ (s : State) (k : Fin 4096) (sheaf : Fin 8) (cache : Fin 9) (w : Who) (md pace : Nat), s.m.resting = false →
    let r := tget MissRun.reset s.m.cch.runs k
    let x := s.m.ecc.scrub
    let cmd := at_ 56 md ||| at_ 0 pace
    let mode : ScrubMode := if md = 2 then .repair else .survey
    (r.count < 3 ∨ (s.m.thr k).state ≠ .running ∨ (s.m.thr k).core / 8 ≠ sheaf → exec (.prefetch sheaf k) s = .next s) ∧
    (3 ≤ r.count → (s.m.thr k).state = .running → (s.m.thr k).core / 8 = sheaf →
      ((r.last + 1) % 64 = 0 → exec (.prefetch sheaf k) s = .next (s.on { s.m with cch := { s.m.cch with runs := tdel s.m.cch.runs k } })) ∧
      (∀ m1 g b, (r.last + 1) % 64 = 63 → inStore (64 * (r.last + 1)) = true → s.m.windowByte k .read (64 * (r.last + 1)) = none →
        (s.m.shared sheaf).find (r.last + 1) = none → (s.m.shared sheaf).buffered (r.last + 1) = none →
        (s.m.peekLine (r.last + 1)).isSome = true → s.m.storeReady (64 * (r.last + 1)) = .ok [] →
        s.m.missRead (64 * (r.last + 1)) = (m1, g, some b) →
        let m2 := (m1.fillShared sheaf 9 (Line.make (r.last + 1) 0 false b)).1
        exec (.prefetch sheaf k) s = .next (s.on { m2 with cch := { m2.cch with runs := tdel m2.cch.runs k } }))) ∧
    ((s.m.shared cache).evict = [] → exec (.evictionWriteback cache) s = .next s) ∧
    (∀ l t, (s.m.shared cache).evict = l :: t →
      exec (.evictionWriteback cache) s = .next (s.on ((s.m.setShared cache { s.m.shared cache with evict := t }).landLine cache l))) ∧
    (w.low = true → md = 1 ∨ md = 2 → pace < 65536 →
      (x.running = false → scrubRange x.start x.stop = true → ¬(md = 2 ∧ regionOf x.start = .fwa) →
        let y : Scrub := { x with mode := mode, pace := pace, running := true, reached := x.start, nextAt := s.m.tb, corr := 0, uncorr := 0,
                                  caddr := [], uaddr := [] }
        exec (.scrubGo w cmd) s = .next (s.on ((s.m.setScrub y).answer .done))) ∧
      (x.running = true ∨ scrubRange x.start x.stop = false ∨ md = 2 ∧ regionOf x.start = .fwa →
        ∃ m2 : Mach, exec (.scrubGo w cmd) s = .next (s.on (m2.answer .done)) ∧ m2.ecc = s.m.ecc ∧ s.m.counted m2 993) ∧
      (x.running = true → md = x.mode.code →
        ∃ m2 : Mach, exec (.scrubStop w cmd) s = .next (s.on (m2.answer .done)) ∧ s.m.counted m2 683 ∧
          m2.ecc.scrub = { x with mode := mode, pace := pace, running := false, stopped := true }) ∧
      (x.running = true → md ≠ x.mode.code →
        ∃ m2 : Mach, exec (.scrubStop w cmd) s = .next (s.on (m2.answer .done)) ∧ m2.ecc = s.m.ecc ∧ s.m.counted m2 993)) ∧
    (w.ring = .r2 → ∀ i, i ∈ [Instr.scrubGo w cmd, .scrubStop w cmd, .eccCtlClear w 1] → exec i s = .next (s.on (s.m.answer (.denied 2)))) ∧
    (x.running = false ∨ s.m.tb < x.nextAt → exec .scrubRead s = .next s) ∧
    (x.running = true → x.nextAt ≤ s.m.tb →
      (s.m.scrubWords 8 x.reached = none → exec .scrubRead s = .next s) ∧
      (∀ m1, s.m.scrubWords 8 x.reached = some m1 →
        let y := m1.ecc.scrub
        (y.reached + 64 < y.stop →
          exec .scrubRead s = .next (s.on (m1.setScrub { y with reached := y.reached + 64, nextAt := m1.tb + y.pace }))) ∧
        (y.stop ≤ y.reached + 64 → m1.dbg.frozen = false →
          ∃ m2 : Mach, exec .scrubRead s = .next (s.on m2) ∧ m1.counted m2 682 ∧
            m2.ecc.scrub = { y with reached := y.reached + 64, nextAt := m1.tb + y.pace, running := false, done := true }))) ∧
    (∀ (m m1 : Mach) (a lanes : Nat) (b : List Byte), m.peekWord a = .ok b (BitVec.ofNat 8 lanes) → 0 < lanes → lanes < 256 → m.readWord a = (m1, .ok b) →
      let y := m1.ecc.scrub
      let m2 := m1.setScrub { y with corr := y.corr + 1, caddr := first16 y.caddr a }
      m.scrubWord a = some (if y.mode = .repair then m2.putBytes a b else m2)) ∧
    (w.ring = .r0 → exec (.eccCtlClear w 1) s =
      .next (s.on ({ s.m with ecc := { s.m.ecc with chaff := [], ovf := 0, ovfSeen := false } }.answer .done)))

/-- INIT trains every rank that is off, where all are off or retired; a rank that trained fills its range with zeros, 1 MiB at a time, and
serves; one that failed leaves its range to the spare. RETIRE takes a rank out, copying it to the spare first when one stands by, 1 MiB at
a time and not below the inhibit threshold; both are ring 0's. Refreshes count toward the next reading of MR4, whose change of the
multiplier raises event 745 (R545, R547 to R553, R556, R588). A range that no rank serves goes to a spare that stands by; waits for one
that comes up; and is lost otherwise, with event 743 and mode 2 (R549, R553). -/
def Obligations.DramService : Prop :=
  (∀ (s : State) (w : Who) (q : Fin 5) (cached ok : Bool) (v : BitVec 8), s.m.resting = false →
    let r := s.m.rank q
    let d := s.m.drc
    let after := fun (i : Instr) (m2 : Mach) => exec i s = .next (s.on m2)
    (w.ring ≠ .r0 → ∀ i, i ∈ [Instr.drcInit w 0, .retireRank w (w64 q)] → after i (s.m.answer (.denied 2))) ∧
    (w.ring = .r0 →
      ((∀ n, n < 5 → (s.m.rank n).state = .off ∨ (s.m.rank n).state = .retired) → s.m.orphans = [] →
        ∃ m2 : Mach, after (.drcInit w 0) (m2.answer .done) ∧
          (∀ n, n < 5 → (s.m.rank n).state = .off → m2.rank n = { s.m.rank n with state := .training }) ∧
          (∀ n, n < 5 → (s.m.rank n).state = .retired → m2.rank n = s.m.rank n)) ∧
      (∀ n, n < 5 → (s.m.rank n).state ≠ .off → (s.m.rank n).state ≠ .retired →
        ∃ m2 : Mach, after (.drcInit w 0) (m2.answer .done) ∧ m2.drc = d ∧ s.m.counted m2 993) ∧
      (r.state = .failed ∨ r.state = .retired ∨ r.state = .training ∨ r.state = .filling ∨ d.migrating ≠ none →
        ∃ m2 : Mach, after (.retireRank w (w64 q)) (m2.answer .done) ∧ m2.drc = d ∧ s.m.counted m2 993) ∧
      (r.state = .off ∨ r.state = .standby → d.migrating = none →
        after (.retireRank w (w64 q)) (((s.m.setRetired q).raise (736 + q)).answer .done)) ∧
      (∀ p, r.state = .service → r.serves = some p → d.migrating = none →
        (q.val < 4 → (s.m.rank 4).state = .standby →
          ∃ m2 : Mach, after (.retireRank w (w64 q)) (m2.answer .done) ∧ m2.rank q = { r with state := .migrating } ∧
            m2.rank 4 = { s.m.rank 4 with state := .copying } ∧ m2.drc.migrating = some q.val ∧ m2.drc.migpos = 0 ∧ m2.mem = s.m.mem) ∧
        ((s.m.rank 4).state ≠ .standby →
          after (.retireRank w (w64 q)) ((((s.m.setRetired q).raise (736 + q)).loseRange p).answer .done)))) ∧
    (r.state ≠ .training → after (.dramTrainingDone q cached ok) s.m) ∧
    (r.state = .training →
      (s.m.fwa.trained.contains q.val = true →
        after (.dramTrainingDone q true true) (s.m.setRank q { r with state := .filling, filled := 0, trained := 1 })) ∧
      (∃ m2 : Mach, after (.dramTrainingDone q false true) m2 ∧ m2.rank q = { r with state := .filling, filled := 0, trained := 2 } ∧
        s.m.counted m2 744 ∧ (s.m.inhibited = false → m2.fwa.trained.contains q.val = true)) ∧
      after (.dramTrainingDone q cached false)
        (((s.m.setRank q { r with state := .failed, serves := none, train := sat 65535 (r.train + 1) }).raise 746).settleRanges)) ∧
    (r.state ≠ .filling → after (.dramFillRegion q) s.m) ∧
    (∀ p, r.state = .filling → r.serves = some p → p < 4 →
      let lo := dramBase + p * rangeSize + r.filled * 0x100000
      (r.filled + 1 < 8192 →
        ∃ m2 : Mach, after (.dramFillRegion q) m2 ∧ m2.rank q = { r with filled := r.filled + 1 } ∧
          (∀ a, lo ≤ a → a < lo + 0x100000 → m2.byte a = 0 ∧ m2.check a = checkOf 0) ∧
          (∀ a, a < lo ∨ lo + 0x100000 ≤ a → m2.byte a = s.m.byte a)) ∧
      (r.filled = 8191 → s.m.orphans = [] →
        ∃ m2 : Mach, after (.dramFillRegion q) m2 ∧ m2.rank q = { r with filled := 8192, state := if q.val < 4 then .service else .standby } ∧
          (∀ a, lo ≤ a → a < lo + 0x100000 → m2.byte a = 0))) ∧
    (d.migrating = none ∨ s.m.inhibited = true → after .migrationRegion s.m) ∧
    (∀ n p, d.migrating = some n → n < 4 → s.m.inhibited = false → (s.m.rank n).serves = some p →
      s.m.oddWords (dramBase + p * rangeSize + d.migpos * 0x100000) (dramBase + p * rangeSize + d.migpos * 0x100000 + 0x100000) = [] →
      (d.migpos + 1 < 8192 → after .migrationRegion { s.m with drc := { d with migpos := d.migpos + 1 } }) ∧
      (d.migpos = 8191 →
        ∃ m2 : Mach, after .migrationRegion m2 ∧ m2.rank n = { s.m.rank n with state := .retired, serves := none } ∧
          m2.rank 4 = { s.m.rank 4 with state := .service, serves := some p } ∧ m2.drc.migrating = none ∧ m2.drc.spared = some p ∧
          m2.mem = s.m.mem ∧ s.m.counted m2 742)) ∧
    (∀ (m : Mach) (n a : Nat) (b : List Byte) (lanes : BitVec 8), m.peekWord a = .ok b lanes → lanes ≠ 0 →
      m.copyWord n a = (m.eccCorr 1 a lanes).putBytes a b) ∧
    (r.refreshed = true → after (.dramRefresh q) (s.m.setRank q { r with since := sat 16 (r.since + 1) })) ∧
    (r.refreshed = false → after (.dramRefresh q) s.m) ∧
    (r.refreshed = false ∨ r.since < 16 → after (.mr4Read q v) s.m) ∧
    (r.refreshed = true → 16 ≤ r.since →
      let n := Config.refreshMult v.toNat
      let m1 := s.m.setRank q { r with mr4 := v.toNat, since := 0, mult := n }
      (n = r.mult → after (.mr4Read q v) m1) ∧
      (n ≠ r.mult → ∃ m2 : Mach, after (.mr4Read q v) m2 ∧ m2.drc = m1.drc ∧ s.m.counted m2 745))) ∧
  (∀ (m : Mach) (p : Nat), m.dbg.frozen = false →
    (m.orphans = [] → m.settleRanges = m) ∧
    (m.orphans = [p] →
      ((m.rank 4).state = .standby → (m.rank 4).serves = none → (m.settleRanges.rank 4).state = .service ∧ (m.settleRanges.rank 4).serves = some p ∧
        m.settleRanges.drc.spared = some p ∧ m.settleRanges.mem = m.mem ∧ m.settleRanges.orphans = []) ∧
      ((m.rank 4).state = .off ∨ (m.rank 4).state = .training ∨ (m.rank 4).state = .filling → m.settleRanges = m) ∧
      ((m.rank 4).state = .retired ∨ (m.rank 4).state = .failed ∨ (m.rank 4).state = .service → m.drc.lost = none →
        m.settleRanges.drc.lost = some p ∧ m.settleRanges.drc.mode = 2 ∧ (∀ a, m.settleRanges.server p a = none))))

/-! ## The firmware array (R559 to R573, R581) -/

/-- A command of ring 0 to the idle array issues: PROGRAM and CLEAR on a 256 B unit, ERASE on a sector. Below the inhibit threshold it is
held with event 772; on the bank that the writer executes from it ends with SELF-BANK and event 770; one that breaks a rule is a reserved
encoding. SUSPEND parks a running erase and RESUME lets it go on. A completed program has stored its 256 bytes, a clear zeros with zero
check bits, an erase ones, and nothing beside them; it ends with event 768, an unequal read-back with status 2 and event 769, a unit that
was not erased with status 3 (R560, R563 to R567, R581). RAISE burns a fuse at level 0, SEAL one below level 2, LOWER one at level 1 that
has not been lowered eight times; the last resets the module. Each burn raises event 777; below the inhibit threshold the fuse waits with
event 772; a command that the level does not allow is a reserved encoding, and only ring 0 commands any (R571 to R573, R588). -/
def Obligations.FirmwareArray : Prop :=
  (∀ (s : State) (w : Who) (n : Nat), s.m.resting = false → n < 2 ^ 25 →
    let f := s.m.fwa
    let run := fun (kind : FwaKind) => if kind = .program then Instr.fwaProgram w (at_ 0 n) else if kind = .clear then .fwaClear w (at_ 0 n)
      else .fwaErase w (at_ 0 n)
    let src := f.src % 8 = 0 ∧ inStore f.src = true ∧ regionOf (f.src + 255) = regionOf f.src
    let may := fun (kind : FwaKind) =>
      if kind = .erase then n % 65536 = 0 ∧ f.susp = none
      else n % 256 = 0 ∧ (kind = .program → src) ∧ (∀ o, f.susp = some o → o.off / 65536 ≠ n / 65536)
    (w.ring ≠ .r0 → ∀ i, i ∈ [Instr.fwaProgram w (at_ 0 n), .fwaClear w (at_ 0 n), .fwaErase w (at_ 0 n), .fwaSuspend w 0, .fwaResume w 0] →
      exec i s = .next (s.on (s.m.answer (.denied 2)))) ∧
    (w.ring = .r0 → ∀ kind,
      (f.op ≠ none ∨ f.heldCmd ≠ none ∨ n % 256 ≠ 0 →
        ∃ m2 : Mach, exec (run kind) s = .next (s.on (m2.answer .done)) ∧ m2.fwa = f ∧ m2.mem = s.m.mem ∧ s.m.counted m2 993) ∧
      (f.op = none → f.heldCmd = none → may kind →
        let o : FwaOp := { kind := kind, off := n, src := f.src, from_ := s.m.tb }
        (s.m.writerBank w = some (n / 0x1000000) →
          ∃ m2 : Mach, exec (run kind) s = .next (s.on (m2.answer .done)) ∧ m2.fwa = { f with last := 1, selfbank := sat 65535 (f.selfbank + 1) } ∧
            s.m.counted m2 770) ∧
        (s.m.writerBank w ≠ some (n / 0x1000000) →
          (s.m.inhibited = true → ∃ m2 : Mach, exec (run kind) s = .next (s.on (m2.answer .done)) ∧ m2.fwa = { f with heldCmd := some o } ∧
            s.m.counted m2 772) ∧
          (s.m.inhibited = false → ∃ m2 : Mach, exec (run kind) s = .next (s.on (m2.answer .done)) ∧ m2.fwa.op = some o ∧
            m2.fwa.offset = n ∧ m2.mem = s.m.mem)))) ∧
    (w.ring = .r0 →
      (∀ o, f.op = some o → o.kind = .erase →
        exec (.fwaSuspend w 0) s = .next (s.on ({ s.m with fwa :=
          { f with op := none, susp := some o, suspSag := false, suspN := sat 65535 (f.suspN + 1) } }.answer .done))) ∧
      (f.op = none → exec (.fwaSuspend w 0) s = .next (s.on (s.m.answer .done))) ∧
      (f.op ≠ none → ∃ m2 : Mach, exec (.fwaResume w 0) s = .next (s.on (m2.answer .done)) ∧ m2.fwa = f ∧ s.m.counted m2 993) ∧
      (f.op = none → f.susp = none → exec (.fwaResume w 0) s = .next (s.on (s.m.answer .done))) ∧
      (∀ o, f.op = none → f.susp = some o → s.m.inhibited = false →
        exec (.fwaResume w 0) s = .next (s.on ({ s.m with fwa :=
          { f with op := some { o with from_ := s.m.tb }, susp := none, suspSag := false } }.answer .done))) ∧
      (∀ o, f.op = none → f.susp = some o → s.m.inhibited = true →
        ∃ m2 : Mach, exec (.fwaResume w 0) s = .next (s.on (m2.answer .done)) ∧ m2.fwa = { f with suspSag := true } ∧ s.m.counted m2 772)) ∧
    (∀ ok, f.op = none → exec (.fwaOpComplete ok) s = .next s) ∧
    (∀ o, f.op = some o → o.off < 2 ^ 25 → o.off % 256 = 0 →
      let a := fwaBase + o.off
      (∀ b m1, o.kind = .program → s.m.erased a 256 = true → s.m.readBytes o.src 256 = (m1, .ok b) → b.length = 256 → m1.mem = s.m.mem → m1.fwa = f →
        m1.dbg.frozen = false → Memory.wf s.m.mem = true →
        ∃ m2 : Mach, exec (.fwaOpComplete true) s = .next (s.on m2) ∧ m2.fwa.op = none ∧ m2.fwa.last = 0 ∧ m1.counted m2 768 ∧
          (∀ i, i < 256 → m2.byte (a + i) = (b[i]?).getD 0 ∧ m2.check (a + i) = checkOf ((b[i]?).getD 0)) ∧
          (∀ x, x < a ∨ a + 256 ≤ x → m2.byte x = s.m.byte x)) ∧
      (∀ ok, o.kind = .program → s.m.erased a 256 = false →
        ∃ m2 : Mach, exec (.fwaOpComplete ok) s = .next (s.on m2) ∧ m2.fwa.op = none ∧ m2.fwa.last = 3 ∧ m2.mem = s.m.mem ∧ s.m.counted m2 768) ∧
      (o.kind = .clear → Memory.wf s.m.mem = true →
        ∃ m2 : Mach, exec (.fwaOpComplete true) s = .next (s.on m2) ∧ m2.fwa.op = none ∧ m2.fwa.last = 0 ∧ s.m.counted m2 768 ∧
          (∀ i, i < 256 → m2.byte (a + i) = 0 ∧ m2.check (a + i) = 0) ∧ (∀ x, x < a ∨ a + 256 ≤ x → m2.byte x = s.m.byte x)) ∧
      (o.kind = .erase → o.off % 65536 = 0 →
        ∃ m2 : Mach, exec (.fwaOpComplete true) s = .next (s.on m2) ∧ m2.fwa.op = none ∧ m2.fwa.last = 0 ∧ s.m.counted m2 768 ∧
          (∀ i, i < 65536 → m2.byte (a + i) = 0xFF ∧ m2.check (a + i) = 0b11111) ∧
          (∀ x, x < a ∨ a + 65536 ≤ x → m2.byte x = s.m.byte x)) ∧
      (o.kind ≠ .program →
        ∃ m2 : Mach, exec (.fwaOpComplete false) s = .next (s.on m2) ∧ m2.fwa.op = none ∧ m2.fwa.last = 2 ∧
          m2.fwa.vfail = sat 65535 (f.vfail + 1) ∧ s.m.counted m2 768 ∧ s.m.counted m2 769))) ∧
  (∀ (s : State) (w : Who), s.m.resting = false →
    let f := s.m.fwa
    (w.ring ≠ .r0 → ∀ i, i ∈ [Instr.rdpRaise w, .rdpSeal w, .rdpLower w] → exec i s = .next (s.on (s.m.answer (.denied 2)))) ∧
    (w.ring = .r0 →
      (∀ r, r ∈ [(Instr.rdpRaise w, 1), (.rdpSeal w, 2), (.rdpLower w, 3)] →
        (f.fuseOk r.2 = false → ∃ m2 : Mach, exec r.1 s = .next (s.on (m2.answer .done)) ∧ m2.fwa = f ∧ s.m.counted m2 993) ∧
        (f.fuseOk r.2 = true → s.m.inhibited = true →
          ∃ m2 : Mach, exec r.1 s = .next (s.on (m2.answer .done)) ∧ m2.fwa = { f with heldFuse := f.heldFuse ++ [r.2] } ∧ s.m.counted m2 772)) ∧
      (s.m.inhibited = false →
        (f.level = 0 → f.raise < 8 → ∃ m2 : Mach, exec (.rdpRaise w) s = .next (s.on (m2.answer .done)) ∧
          m2.fwa = { f with raise := f.raise + 1 } ∧ s.m.counted m2 777) ∧
        (f.level ≠ 2 → ∃ m2 : Mach, exec (.rdpSeal w) s = .next (s.on (m2.answer .done)) ∧ m2.fwa = { f with sealed := true } ∧
          m2.fwa.level = 2 ∧ s.m.counted m2 777) ∧
        (f.level = 1 → f.lowreq < 8 → exec (.rdpLower w) s = .next (s.on ((s.m.burn 3).cold.answer .done)) ∧
          (s.m.burn 3).fwa = { f with lowreq := f.lowreq + 1 } ∧ (s.m.burn 3).cold.fwa.lowreq = f.lowreq + 1))))

/-! ## What stays as it is -/

/-- A command that stores nothing leaves every byte of memory and its check bits, the time base, the digests with the measurement
registers and the keys, the caches, the pipelines of SCAN and RUN and the strapping lands, and, where it allocates no block, every
thread's general registers, predicates, accumulators, pc and saved pc. -/
def Obligations.QuietCommands : Prop :=
  ∀ (i : Instr) (s t : State), i.quiet = true → exec i s = .next t →
    t.m.mem = s.m.mem ∧ t.m.tb = s.m.tb ∧ t.m.dgs = s.m.dgs ∧ t.m.cch = s.m.cch ∧ t.m.scans = s.m.scans ∧ t.m.lands = s.m.lands ∧
    ((∀ w, i ≠ .schTcbAlloc w) → (∀ w n, i ≠ .schTcbAllocSlice w n) →
      ∀ k, (t.m.thr k).g = (s.m.thr k).g ∧ (t.m.thr k).p = (s.m.thr k).p ∧ (t.m.thr k).pl = (s.m.thr k).pl ∧
        (t.m.thr k).ph = (s.m.thr k).ph ∧ (t.m.thr k).pc = (s.m.thr k).pc ∧ (t.m.thr k).xpc = (s.m.thr k).xpc)
end

