-- ==== Sys2Proof/Laws/Table.lean ====
section
/-! SUPPORT. Laws of the sparse tables and of the cell lists: what a read gives after a write, and that every operation on cells keeps
their canonical form. -/

namespace Sys2Proof.Machine

/-! ## Tables -/

@[simp] theorem tget_nil {α : Type} (d : α) (n : Nat) : tget d [] n = d := rfl

@[simp] theorem tget_tset_self {α : Type} (d v : α) (t : Tab α) (n : Nat) : tget d (tset t n v) n = v := by
  induction t with
  | nil => simp [tset, tget]
  | cons e t ih =>
    obtain ⟨k, w⟩ := e
    simp only [tset]
    split
    · simp [tget]
    · split
      · simp [tget]
      · simp only [tget]; rw [if_neg (by omega)]; exact ih

theorem tget_tset_ne {α : Type} (d v : α) (t : Tab α) {n j : Nat} (h : j ≠ n) : tget d (tset t n v) j = tget d t j := by
  induction t with
  | nil => simp [tset, tget]; intro e; exact absurd e.symm h
  | cons e t ih =>
    obtain ⟨k, w⟩ := e
    simp only [tset]
    split
    · simp [tget, Ne.symm h]
    · split
      · simp only [tget]; rw [if_neg (Ne.symm h), if_neg (by omega)]
      · simp only [tget]
        split
        · rfl
        · exact ih

theorem tget_tset {α : Type} (d v : α) (t : Tab α) (n j : Nat) : tget d (tset t n v) j = if j = n then v else tget d t j := by
  split
  · subst j; exact tget_tset_self d v t n
  · exact tget_tset_ne d v t ‹_›

@[simp] theorem tset_tset {α : Type} (t : Tab α) (n : Nat) (v w : α) : tset (tset t n v) n w = tset t n w := by
  induction t with
  | nil => simp [tset]
  | cons e t ih =>
    obtain ⟨k, u⟩ := e
    by_cases h1 : n < k
    · simp [tset, h1]
    · by_cases h2 : n = k
      · subst k; simp [tset]
      · simp [tset, h1, h2, ih]

@[simp] theorem tget?_tset_self {α : Type} (t : Tab α) (n : Nat) (v : α) : tget? (tset t n v) n = some v := by
  induction t with
  | nil => simp [tset, tget?]
  | cons e t ih =>
    obtain ⟨k, w⟩ := e
    simp only [tset]
    split
    · simp [tget?]
    · split
      · simp [tget?]
      · simp only [tget?]; rw [if_neg (by omega)]; exact ih

theorem tget?_tset_ne {α : Type} (t : Tab α) {n j : Nat} (v : α) (h : j ≠ n) : tget? (tset t n v) j = tget? t j := by
  induction t with
  | nil => simp [tset, tget?]; intro e; exact absurd e.symm h
  | cons e t ih =>
    obtain ⟨k, w⟩ := e
    simp only [tset]
    split
    · simp [tget?, Ne.symm h]
    · split
      · simp only [tget?]; rw [if_neg (Ne.symm h), if_neg (by omega)]
      · simp only [tget?]
        split
        · rfl
        · exact ih

/-! ## Cells -/

/-- A canonical list stays canonical above a smaller bound. -/
theorem memWfFrom_mono {d : Nat → Byte} {lo hi : Nat} (h : lo ≤ hi) :
    ∀ {m : List Host.Cell}, memWfFrom d hi m = true → memWfFrom d lo m = true
  | [], _ => rfl
  | (k, v) :: t, w => by
    simp only [memWfFrom, Bool.and_eq_true, decide_eq_true_eq] at w ⊢
    exact ⟨⟨by omega, w.1.2⟩, w.2⟩

/-- Below a canonical list's bound every address reads its default. -/
theorem memGet_below {d : Nat → Byte} : ∀ {m : List Host.Cell} {lo a : Nat}, memWfFrom d lo m = true → a < lo → memGet d m a = d a
  | [], _, _, _, _ => rfl
  | (k, v) :: t, lo, a, w, h => by
    simp only [memWfFrom, Bool.and_eq_true, decide_eq_true_eq] at w
    simp only [memGet]; rw [if_neg (by omega)]
    exact memGet_below w.2 (by omega)

/-- Writing a byte keeps the canonical form. -/
theorem memSet_wfFrom {d : Nat → Byte} {a : Nat} {v : Byte} :
    ∀ {m : List Host.Cell} {lo : Nat}, lo ≤ a → memWfFrom d lo m = true → memWfFrom d lo (memSet d m a v) = true
  | [], lo, h, _ => by
    simp only [memSet]; split
    · rfl
    · simp [memWfFrom, *]
  | (k, w) :: t, lo, h, hw => by
    simp only [memWfFrom, Bool.and_eq_true, decide_eq_true_eq] at hw
    simp only [memSet]
    split
    · split
      · simp [memWfFrom, hw]
      · simp only [memWfFrom, Bool.and_eq_true, decide_eq_true_eq]
        exact ⟨⟨h, ‹_›⟩, ⟨by omega, hw.1.2⟩, hw.2⟩
    · split
      · split
        · exact memWfFrom_mono (by omega) hw.2
        · simp only [memWfFrom, Bool.and_eq_true, decide_eq_true_eq]
          refine ⟨⟨h, ‹_›⟩, ?_⟩
          subst a; exact hw.2
      · simp only [memWfFrom, Bool.and_eq_true, decide_eq_true_eq]
        exact ⟨hw.1, memSet_wfFrom (by omega) hw.2⟩

theorem memSet_wf {d : Nat → Byte} {m : List Host.Cell} {a : Nat} {v : Byte} (h : memWf d m = true) : memWf d (memSet d m a v) = true :=
  memSet_wfFrom (Nat.zero_le a) h

/-- A read after a write to the same address gives the byte written. -/
theorem memGet_memSet_self {d : Nat → Byte} {a : Nat} {v : Byte} :
    ∀ {m : List Host.Cell} {lo : Nat}, memWfFrom d lo m = true → memGet d (memSet d m a v) a = v
  | [], _, _ => by simp only [memSet]; split <;> simp [memGet, *]
  | (k, w) :: t, lo, hw => by
    simp only [memWfFrom, Bool.and_eq_true, decide_eq_true_eq] at hw
    simp only [memSet]
    split
    · split
      · simp only [memGet]; rw [if_neg (by omega), memGet_below hw.2 (by omega)]; exact Eq.symm ‹_›
      · simp [memGet]
    · split
      · split
        · rw [memGet_below hw.2 (by omega)]; exact Eq.symm ‹_›
        · simp [memGet]
      · simp only [memGet]; rw [if_neg (by omega)]; exact memGet_memSet_self hw.2

/-- A write leaves every other address alone. -/
theorem memGet_memSet_ne {d : Nat → Byte} {a b : Nat} {v : Byte} (h : b ≠ a) :
    ∀ {m : List Host.Cell}, memGet d (memSet d m a v) b = memGet d m b
  | [] => by simp only [memSet]; split <;> simp [memGet]; intro e; exact absurd e.symm h
  | (k, w) :: t => by
    simp only [memSet]
    split
    · split
      · rfl
      · simp [memGet, Ne.symm h]
    · split
      · subst a
        split
        · simp only [memGet]; rw [if_neg (Ne.symm h)]
        · simp only [memGet]; rw [if_neg (Ne.symm h), if_neg (Ne.symm h)]
      · simp only [memGet]
        split
        · rfl
        · exact memGet_memSet_ne h

/-- Leaving cells out keeps the canonical form. -/
theorem memFilter_wfFrom {d : Nat → Byte} (p : Host.Cell → Bool) :
    ∀ {m : List Host.Cell} {lo : Nat}, memWfFrom d lo m = true → memWfFrom d lo (m.filter p) = true
  | [], _, _ => rfl
  | (k, v) :: t, lo, w => by
    simp only [memWfFrom, Bool.and_eq_true, decide_eq_true_eq] at w
    have r := memFilter_wfFrom p w.2
    rw [List.filter_cons]
    split
    · simp only [memWfFrom, Bool.and_eq_true, decide_eq_true_eq]; exact ⟨w.1, r⟩
    · exact memWfFrom_mono (by omega) r

theorem memClear_wf {d : Nat → Byte} {m : List Host.Cell} (lo hi : Nat) (h : memWf d m = true) : memWf d (memClear m lo hi) = true :=
  memFilter_wfFrom _ h

/-- Two canonical lists, the first below the bound of the second, join to one. -/
theorem memWfFrom_append {d : Nat → Byte} {mid : Nat} {n : List Host.Cell} :
    ∀ {m : List Host.Cell} {lo : Nat}, lo ≤ mid → memWfFrom d lo m = true → (∀ e ∈ m, e.1 < mid) → memWfFrom d mid n = true →
      memWfFrom d lo (m ++ n) = true
  | [], _, h, _, _, hn => memWfFrom_mono h hn
  | (k, v) :: t, lo, _, w, b, hn => by
    simp only [memWfFrom, Bool.and_eq_true, decide_eq_true_eq, List.cons_append] at w ⊢
    have hk : k < mid := b (k, v) (List.mem_cons_self ..)
    exact ⟨w.1, memWfFrom_append (by omega) w.2 (fun e he => b e (List.mem_cons_of_mem _ he)) hn⟩

/-- The cells that remain above a bound form a canonical list above it. -/
theorem memAbove_wfFrom {d : Nat → Byte} {hi : Nat} :
    ∀ {m : List Host.Cell} {lo : Nat}, memWfFrom d lo m = true → memWfFrom d hi (m.filter fun e => decide (hi ≤ e.1)) = true
  | [], _, _ => rfl
  | (k, v) :: t, lo, w => by
    simp only [memWfFrom, Bool.and_eq_true, decide_eq_true_eq] at w
    by_cases h : hi ≤ k
    · rw [List.filter_cons_of_pos (by simpa using h)]
      simp only [memWfFrom, Bool.and_eq_true, decide_eq_true_eq]
      exact ⟨⟨h, w.1.2⟩, memFilter_wfFrom _ w.2⟩
    · rw [List.filter_cons_of_neg (by simpa using h)]
      exact memAbove_wfFrom w.2

end Sys2Proof.Machine
end

