-- ==== Sys2Proof/Laws/State.lean ====
section
/-! SUPPORT. What each update of one unit of the state leaves, field by field, and what a read of the unit gives after it. -/

namespace Sys2Proof.Machine

/-! ### setThr -/

@[simp] theorem Mach.setThr_tb (m : Mach) (k : Nat) (t : Thr) : (m.setThr k t).tb = m.tb := rfl
@[simp] theorem Mach.setThr_refLost (m : Mach) (k : Nat) (t : Thr) : (m.setThr k t).refLost = m.refLost := rfl
@[simp] theorem Mach.setThr_sys (m : Mach) (k : Nat) (t : Thr) : (m.setThr k t).sys = m.sys := rfl
@[simp] theorem Mach.setThr_grn (m : Mach) (k : Nat) (t : Thr) : (m.setThr k t).grn = m.grn := rfl
@[simp] theorem Mach.setThr_mbx (m : Mach) (k : Nat) (t : Thr) : (m.setThr k t).mbx = m.mbx := rfl
@[simp] theorem Mach.setThr_lnk (m : Mach) (k : Nat) (t : Thr) : (m.setThr k t).lnk = m.lnk := rfl
@[simp] theorem Mach.setThr_hq (m : Mach) (k : Nat) (t : Thr) : (m.setThr k t).hq = m.hq := rfl
@[simp] theorem Mach.setThr_slc (m : Mach) (k : Nat) (t : Thr) : (m.setThr k t).slc = m.slc := rfl
@[simp] theorem Mach.setThr_map (m : Mach) (k : Nat) (t : Thr) : (m.setThr k t).map = m.map := rfl
@[simp] theorem Mach.setThr_fch (m : Mach) (k : Nat) (t : Thr) : (m.setThr k t).fch = m.fch := rfl
@[simp] theorem Mach.setThr_eng (m : Mach) (k : Nat) (t : Thr) : (m.setThr k t).eng = m.eng := rfl
@[simp] theorem Mach.setThr_dgs (m : Mach) (k : Nat) (t : Thr) : (m.setThr k t).dgs = m.dgs := rfl
@[simp] theorem Mach.setThr_wnw (m : Mach) (k : Nat) (t : Thr) : (m.setThr k t).wnw = m.wnw := rfl
@[simp] theorem Mach.setThr_scans (m : Mach) (k : Nat) (t : Thr) : (m.setThr k t).scans = m.scans := rfl
@[simp] theorem Mach.setThr_cch (m : Mach) (k : Nat) (t : Thr) : (m.setThr k t).cch = m.cch := rfl
@[simp] theorem Mach.setThr_ecc (m : Mach) (k : Nat) (t : Thr) : (m.setThr k t).ecc = m.ecc := rfl
@[simp] theorem Mach.setThr_drc (m : Mach) (k : Nat) (t : Thr) : (m.setThr k t).drc = m.drc := rfl
@[simp] theorem Mach.setThr_fwa (m : Mach) (k : Nat) (t : Thr) : (m.setThr k t).fwa = m.fwa := rfl
@[simp] theorem Mach.setThr_pwr (m : Mach) (k : Nat) (t : Thr) : (m.setThr k t).pwr = m.pwr := rfl
@[simp] theorem Mach.setThr_dbg (m : Mach) (k : Nat) (t : Thr) : (m.setThr k t).dbg = m.dbg := rfl
@[simp] theorem Mach.setThr_lands (m : Mach) (k : Nat) (t : Thr) : (m.setThr k t).lands = m.lands := rfl
@[simp] theorem Mach.setThr_mem (m : Mach) (k : Nat) (t : Thr) : (m.setThr k t).mem = m.mem := rfl
@[simp] theorem Mach.setThr_port (m : Mach) (k : Nat) (t : Thr) : (m.setThr k t).port = m.port := rfl
@[simp] theorem Mach.setThr_free (m : Mach) (k : Nat) (t : Thr) : (m.setThr k t).free = m.free := rfl

/-! ### setCore -/

@[simp] theorem Mach.setCore_tb (m : Mach) (c : Nat) (v : Core) : (m.setCore c v).tb = m.tb := rfl
@[simp] theorem Mach.setCore_refLost (m : Mach) (c : Nat) (v : Core) : (m.setCore c v).refLost = m.refLost := rfl
@[simp] theorem Mach.setCore_sys (m : Mach) (c : Nat) (v : Core) : (m.setCore c v).sys = m.sys := rfl
@[simp] theorem Mach.setCore_grn (m : Mach) (c : Nat) (v : Core) : (m.setCore c v).grn = m.grn := rfl
@[simp] theorem Mach.setCore_mbx (m : Mach) (c : Nat) (v : Core) : (m.setCore c v).mbx = m.mbx := rfl
@[simp] theorem Mach.setCore_lnk (m : Mach) (c : Nat) (v : Core) : (m.setCore c v).lnk = m.lnk := rfl
@[simp] theorem Mach.setCore_hq (m : Mach) (c : Nat) (v : Core) : (m.setCore c v).hq = m.hq := rfl
@[simp] theorem Mach.setCore_slc (m : Mach) (c : Nat) (v : Core) : (m.setCore c v).slc = m.slc := rfl
@[simp] theorem Mach.setCore_map (m : Mach) (c : Nat) (v : Core) : (m.setCore c v).map = m.map := rfl
@[simp] theorem Mach.setCore_fch (m : Mach) (c : Nat) (v : Core) : (m.setCore c v).fch = m.fch := rfl
@[simp] theorem Mach.setCore_eng (m : Mach) (c : Nat) (v : Core) : (m.setCore c v).eng = m.eng := rfl
@[simp] theorem Mach.setCore_dgs (m : Mach) (c : Nat) (v : Core) : (m.setCore c v).dgs = m.dgs := rfl
@[simp] theorem Mach.setCore_wnw (m : Mach) (c : Nat) (v : Core) : (m.setCore c v).wnw = m.wnw := rfl
@[simp] theorem Mach.setCore_scans (m : Mach) (c : Nat) (v : Core) : (m.setCore c v).scans = m.scans := rfl
@[simp] theorem Mach.setCore_cch (m : Mach) (c : Nat) (v : Core) : (m.setCore c v).cch = m.cch := rfl
@[simp] theorem Mach.setCore_ecc (m : Mach) (c : Nat) (v : Core) : (m.setCore c v).ecc = m.ecc := rfl
@[simp] theorem Mach.setCore_drc (m : Mach) (c : Nat) (v : Core) : (m.setCore c v).drc = m.drc := rfl
@[simp] theorem Mach.setCore_fwa (m : Mach) (c : Nat) (v : Core) : (m.setCore c v).fwa = m.fwa := rfl
@[simp] theorem Mach.setCore_pwr (m : Mach) (c : Nat) (v : Core) : (m.setCore c v).pwr = m.pwr := rfl
@[simp] theorem Mach.setCore_dbg (m : Mach) (c : Nat) (v : Core) : (m.setCore c v).dbg = m.dbg := rfl
@[simp] theorem Mach.setCore_lands (m : Mach) (c : Nat) (v : Core) : (m.setCore c v).lands = m.lands := rfl
@[simp] theorem Mach.setCore_mem (m : Mach) (c : Nat) (v : Core) : (m.setCore c v).mem = m.mem := rfl
@[simp] theorem Mach.setCore_port (m : Mach) (c : Nat) (v : Core) : (m.setCore c v).port = m.port := rfl
@[simp] theorem Mach.setCore_free (m : Mach) (c : Nat) (v : Core) : (m.setCore c v).free = m.free := rfl

/-! ### setEvt -/

@[simp] theorem Mach.setEvt_tb (m : Mach) (e : Nat) (v : Evt) : (m.setEvt e v).tb = m.tb := rfl
@[simp] theorem Mach.setEvt_refLost (m : Mach) (e : Nat) (v : Evt) : (m.setEvt e v).refLost = m.refLost := rfl
@[simp] theorem Mach.setEvt_sys (m : Mach) (e : Nat) (v : Evt) : (m.setEvt e v).sys = m.sys := rfl
@[simp] theorem Mach.setEvt_grn (m : Mach) (e : Nat) (v : Evt) : (m.setEvt e v).grn = m.grn := rfl
@[simp] theorem Mach.setEvt_mbx (m : Mach) (e : Nat) (v : Evt) : (m.setEvt e v).mbx = m.mbx := rfl
@[simp] theorem Mach.setEvt_lnk (m : Mach) (e : Nat) (v : Evt) : (m.setEvt e v).lnk = m.lnk := rfl
@[simp] theorem Mach.setEvt_hq (m : Mach) (e : Nat) (v : Evt) : (m.setEvt e v).hq = m.hq := rfl
@[simp] theorem Mach.setEvt_slc (m : Mach) (e : Nat) (v : Evt) : (m.setEvt e v).slc = m.slc := rfl
@[simp] theorem Mach.setEvt_map (m : Mach) (e : Nat) (v : Evt) : (m.setEvt e v).map = m.map := rfl
@[simp] theorem Mach.setEvt_fch (m : Mach) (e : Nat) (v : Evt) : (m.setEvt e v).fch = m.fch := rfl
@[simp] theorem Mach.setEvt_eng (m : Mach) (e : Nat) (v : Evt) : (m.setEvt e v).eng = m.eng := rfl
@[simp] theorem Mach.setEvt_dgs (m : Mach) (e : Nat) (v : Evt) : (m.setEvt e v).dgs = m.dgs := rfl
@[simp] theorem Mach.setEvt_wnw (m : Mach) (e : Nat) (v : Evt) : (m.setEvt e v).wnw = m.wnw := rfl
@[simp] theorem Mach.setEvt_scans (m : Mach) (e : Nat) (v : Evt) : (m.setEvt e v).scans = m.scans := rfl
@[simp] theorem Mach.setEvt_cch (m : Mach) (e : Nat) (v : Evt) : (m.setEvt e v).cch = m.cch := rfl
@[simp] theorem Mach.setEvt_ecc (m : Mach) (e : Nat) (v : Evt) : (m.setEvt e v).ecc = m.ecc := rfl
@[simp] theorem Mach.setEvt_drc (m : Mach) (e : Nat) (v : Evt) : (m.setEvt e v).drc = m.drc := rfl
@[simp] theorem Mach.setEvt_fwa (m : Mach) (e : Nat) (v : Evt) : (m.setEvt e v).fwa = m.fwa := rfl
@[simp] theorem Mach.setEvt_pwr (m : Mach) (e : Nat) (v : Evt) : (m.setEvt e v).pwr = m.pwr := rfl
@[simp] theorem Mach.setEvt_dbg (m : Mach) (e : Nat) (v : Evt) : (m.setEvt e v).dbg = m.dbg := rfl
@[simp] theorem Mach.setEvt_lands (m : Mach) (e : Nat) (v : Evt) : (m.setEvt e v).lands = m.lands := rfl
@[simp] theorem Mach.setEvt_mem (m : Mach) (e : Nat) (v : Evt) : (m.setEvt e v).mem = m.mem := rfl
@[simp] theorem Mach.setEvt_port (m : Mach) (e : Nat) (v : Evt) : (m.setEvt e v).port = m.port := rfl
@[simp] theorem Mach.setEvt_free (m : Mach) (e : Nat) (v : Evt) : (m.setEvt e v).free = m.free := rfl

/-! ### setBox -/

@[simp] theorem Mach.setBox_tb (m : Mach) (k : Nat) (v : Box) : (m.setBox k v).tb = m.tb := rfl
@[simp] theorem Mach.setBox_refLost (m : Mach) (k : Nat) (v : Box) : (m.setBox k v).refLost = m.refLost := rfl
@[simp] theorem Mach.setBox_sys (m : Mach) (k : Nat) (v : Box) : (m.setBox k v).sys = m.sys := rfl
@[simp] theorem Mach.setBox_grn (m : Mach) (k : Nat) (v : Box) : (m.setBox k v).grn = m.grn := rfl
@[simp] theorem Mach.setBox_sch (m : Mach) (k : Nat) (v : Box) : (m.setBox k v).sch = m.sch := rfl
@[simp] theorem Mach.setBox_lnk (m : Mach) (k : Nat) (v : Box) : (m.setBox k v).lnk = m.lnk := rfl
@[simp] theorem Mach.setBox_hq (m : Mach) (k : Nat) (v : Box) : (m.setBox k v).hq = m.hq := rfl
@[simp] theorem Mach.setBox_slc (m : Mach) (k : Nat) (v : Box) : (m.setBox k v).slc = m.slc := rfl
@[simp] theorem Mach.setBox_map (m : Mach) (k : Nat) (v : Box) : (m.setBox k v).map = m.map := rfl
@[simp] theorem Mach.setBox_fch (m : Mach) (k : Nat) (v : Box) : (m.setBox k v).fch = m.fch := rfl
@[simp] theorem Mach.setBox_eng (m : Mach) (k : Nat) (v : Box) : (m.setBox k v).eng = m.eng := rfl
@[simp] theorem Mach.setBox_dgs (m : Mach) (k : Nat) (v : Box) : (m.setBox k v).dgs = m.dgs := rfl
@[simp] theorem Mach.setBox_wnw (m : Mach) (k : Nat) (v : Box) : (m.setBox k v).wnw = m.wnw := rfl
@[simp] theorem Mach.setBox_scans (m : Mach) (k : Nat) (v : Box) : (m.setBox k v).scans = m.scans := rfl
@[simp] theorem Mach.setBox_cch (m : Mach) (k : Nat) (v : Box) : (m.setBox k v).cch = m.cch := rfl
@[simp] theorem Mach.setBox_ecc (m : Mach) (k : Nat) (v : Box) : (m.setBox k v).ecc = m.ecc := rfl
@[simp] theorem Mach.setBox_drc (m : Mach) (k : Nat) (v : Box) : (m.setBox k v).drc = m.drc := rfl
@[simp] theorem Mach.setBox_fwa (m : Mach) (k : Nat) (v : Box) : (m.setBox k v).fwa = m.fwa := rfl
@[simp] theorem Mach.setBox_pwr (m : Mach) (k : Nat) (v : Box) : (m.setBox k v).pwr = m.pwr := rfl
@[simp] theorem Mach.setBox_dbg (m : Mach) (k : Nat) (v : Box) : (m.setBox k v).dbg = m.dbg := rfl
@[simp] theorem Mach.setBox_lands (m : Mach) (k : Nat) (v : Box) : (m.setBox k v).lands = m.lands := rfl
@[simp] theorem Mach.setBox_mem (m : Mach) (k : Nat) (v : Box) : (m.setBox k v).mem = m.mem := rfl
@[simp] theorem Mach.setBox_port (m : Mach) (k : Nat) (v : Box) : (m.setBox k v).port = m.port := rfl
@[simp] theorem Mach.setBox_free (m : Mach) (k : Nat) (v : Box) : (m.setBox k v).free = m.free := rfl

/-! ### setLock -/

@[simp] theorem Mach.setLock_tb (m : Mach) (n : Nat) (v : Lock) : (m.setLock n v).tb = m.tb := rfl
@[simp] theorem Mach.setLock_refLost (m : Mach) (n : Nat) (v : Lock) : (m.setLock n v).refLost = m.refLost := rfl
@[simp] theorem Mach.setLock_sys (m : Mach) (n : Nat) (v : Lock) : (m.setLock n v).sys = m.sys := rfl
@[simp] theorem Mach.setLock_grn (m : Mach) (n : Nat) (v : Lock) : (m.setLock n v).grn = m.grn := rfl
@[simp] theorem Mach.setLock_sch (m : Mach) (n : Nat) (v : Lock) : (m.setLock n v).sch = m.sch := rfl
@[simp] theorem Mach.setLock_lnk (m : Mach) (n : Nat) (v : Lock) : (m.setLock n v).lnk = m.lnk := rfl
@[simp] theorem Mach.setLock_hq (m : Mach) (n : Nat) (v : Lock) : (m.setLock n v).hq = m.hq := rfl
@[simp] theorem Mach.setLock_slc (m : Mach) (n : Nat) (v : Lock) : (m.setLock n v).slc = m.slc := rfl
@[simp] theorem Mach.setLock_map (m : Mach) (n : Nat) (v : Lock) : (m.setLock n v).map = m.map := rfl
@[simp] theorem Mach.setLock_fch (m : Mach) (n : Nat) (v : Lock) : (m.setLock n v).fch = m.fch := rfl
@[simp] theorem Mach.setLock_eng (m : Mach) (n : Nat) (v : Lock) : (m.setLock n v).eng = m.eng := rfl
@[simp] theorem Mach.setLock_dgs (m : Mach) (n : Nat) (v : Lock) : (m.setLock n v).dgs = m.dgs := rfl
@[simp] theorem Mach.setLock_wnw (m : Mach) (n : Nat) (v : Lock) : (m.setLock n v).wnw = m.wnw := rfl
@[simp] theorem Mach.setLock_scans (m : Mach) (n : Nat) (v : Lock) : (m.setLock n v).scans = m.scans := rfl
@[simp] theorem Mach.setLock_cch (m : Mach) (n : Nat) (v : Lock) : (m.setLock n v).cch = m.cch := rfl
@[simp] theorem Mach.setLock_ecc (m : Mach) (n : Nat) (v : Lock) : (m.setLock n v).ecc = m.ecc := rfl
@[simp] theorem Mach.setLock_drc (m : Mach) (n : Nat) (v : Lock) : (m.setLock n v).drc = m.drc := rfl
@[simp] theorem Mach.setLock_fwa (m : Mach) (n : Nat) (v : Lock) : (m.setLock n v).fwa = m.fwa := rfl
@[simp] theorem Mach.setLock_pwr (m : Mach) (n : Nat) (v : Lock) : (m.setLock n v).pwr = m.pwr := rfl
@[simp] theorem Mach.setLock_dbg (m : Mach) (n : Nat) (v : Lock) : (m.setLock n v).dbg = m.dbg := rfl
@[simp] theorem Mach.setLock_lands (m : Mach) (n : Nat) (v : Lock) : (m.setLock n v).lands = m.lands := rfl
@[simp] theorem Mach.setLock_mem (m : Mach) (n : Nat) (v : Lock) : (m.setLock n v).mem = m.mem := rfl
@[simp] theorem Mach.setLock_port (m : Mach) (n : Nat) (v : Lock) : (m.setLock n v).port = m.port := rfl
@[simp] theorem Mach.setLock_free (m : Mach) (n : Nat) (v : Lock) : (m.setLock n v).free = m.free := rfl

/-! ### setBuf -/

@[simp] theorem Mach.setBuf_tb (m : Mach) (k : Nat) (v : Buf) : (m.setBuf k v).tb = m.tb := rfl
@[simp] theorem Mach.setBuf_refLost (m : Mach) (k : Nat) (v : Buf) : (m.setBuf k v).refLost = m.refLost := rfl
@[simp] theorem Mach.setBuf_sys (m : Mach) (k : Nat) (v : Buf) : (m.setBuf k v).sys = m.sys := rfl
@[simp] theorem Mach.setBuf_sch (m : Mach) (k : Nat) (v : Buf) : (m.setBuf k v).sch = m.sch := rfl
@[simp] theorem Mach.setBuf_mbx (m : Mach) (k : Nat) (v : Buf) : (m.setBuf k v).mbx = m.mbx := rfl
@[simp] theorem Mach.setBuf_lnk (m : Mach) (k : Nat) (v : Buf) : (m.setBuf k v).lnk = m.lnk := rfl
@[simp] theorem Mach.setBuf_hq (m : Mach) (k : Nat) (v : Buf) : (m.setBuf k v).hq = m.hq := rfl
@[simp] theorem Mach.setBuf_slc (m : Mach) (k : Nat) (v : Buf) : (m.setBuf k v).slc = m.slc := rfl
@[simp] theorem Mach.setBuf_map (m : Mach) (k : Nat) (v : Buf) : (m.setBuf k v).map = m.map := rfl
@[simp] theorem Mach.setBuf_fch (m : Mach) (k : Nat) (v : Buf) : (m.setBuf k v).fch = m.fch := rfl
@[simp] theorem Mach.setBuf_eng (m : Mach) (k : Nat) (v : Buf) : (m.setBuf k v).eng = m.eng := rfl
@[simp] theorem Mach.setBuf_dgs (m : Mach) (k : Nat) (v : Buf) : (m.setBuf k v).dgs = m.dgs := rfl
@[simp] theorem Mach.setBuf_wnw (m : Mach) (k : Nat) (v : Buf) : (m.setBuf k v).wnw = m.wnw := rfl
@[simp] theorem Mach.setBuf_scans (m : Mach) (k : Nat) (v : Buf) : (m.setBuf k v).scans = m.scans := rfl
@[simp] theorem Mach.setBuf_cch (m : Mach) (k : Nat) (v : Buf) : (m.setBuf k v).cch = m.cch := rfl
@[simp] theorem Mach.setBuf_ecc (m : Mach) (k : Nat) (v : Buf) : (m.setBuf k v).ecc = m.ecc := rfl
@[simp] theorem Mach.setBuf_drc (m : Mach) (k : Nat) (v : Buf) : (m.setBuf k v).drc = m.drc := rfl
@[simp] theorem Mach.setBuf_fwa (m : Mach) (k : Nat) (v : Buf) : (m.setBuf k v).fwa = m.fwa := rfl
@[simp] theorem Mach.setBuf_pwr (m : Mach) (k : Nat) (v : Buf) : (m.setBuf k v).pwr = m.pwr := rfl
@[simp] theorem Mach.setBuf_dbg (m : Mach) (k : Nat) (v : Buf) : (m.setBuf k v).dbg = m.dbg := rfl
@[simp] theorem Mach.setBuf_lands (m : Mach) (k : Nat) (v : Buf) : (m.setBuf k v).lands = m.lands := rfl
@[simp] theorem Mach.setBuf_mem (m : Mach) (k : Nat) (v : Buf) : (m.setBuf k v).mem = m.mem := rfl
@[simp] theorem Mach.setBuf_port (m : Mach) (k : Nat) (v : Buf) : (m.setBuf k v).port = m.port := rfl
@[simp] theorem Mach.setBuf_free (m : Mach) (k : Nat) (v : Buf) : (m.setBuf k v).free = m.free := rfl

/-! ### setCls -/

@[simp] theorem Mach.setCls_tb (m : Mach) (c : Nat) (v : Cls) : (m.setCls c v).tb = m.tb := rfl
@[simp] theorem Mach.setCls_refLost (m : Mach) (c : Nat) (v : Cls) : (m.setCls c v).refLost = m.refLost := rfl
@[simp] theorem Mach.setCls_sys (m : Mach) (c : Nat) (v : Cls) : (m.setCls c v).sys = m.sys := rfl
@[simp] theorem Mach.setCls_sch (m : Mach) (c : Nat) (v : Cls) : (m.setCls c v).sch = m.sch := rfl
@[simp] theorem Mach.setCls_mbx (m : Mach) (c : Nat) (v : Cls) : (m.setCls c v).mbx = m.mbx := rfl
@[simp] theorem Mach.setCls_lnk (m : Mach) (c : Nat) (v : Cls) : (m.setCls c v).lnk = m.lnk := rfl
@[simp] theorem Mach.setCls_hq (m : Mach) (c : Nat) (v : Cls) : (m.setCls c v).hq = m.hq := rfl
@[simp] theorem Mach.setCls_slc (m : Mach) (c : Nat) (v : Cls) : (m.setCls c v).slc = m.slc := rfl
@[simp] theorem Mach.setCls_map (m : Mach) (c : Nat) (v : Cls) : (m.setCls c v).map = m.map := rfl
@[simp] theorem Mach.setCls_fch (m : Mach) (c : Nat) (v : Cls) : (m.setCls c v).fch = m.fch := rfl
@[simp] theorem Mach.setCls_eng (m : Mach) (c : Nat) (v : Cls) : (m.setCls c v).eng = m.eng := rfl
@[simp] theorem Mach.setCls_dgs (m : Mach) (c : Nat) (v : Cls) : (m.setCls c v).dgs = m.dgs := rfl
@[simp] theorem Mach.setCls_wnw (m : Mach) (c : Nat) (v : Cls) : (m.setCls c v).wnw = m.wnw := rfl
@[simp] theorem Mach.setCls_scans (m : Mach) (c : Nat) (v : Cls) : (m.setCls c v).scans = m.scans := rfl
@[simp] theorem Mach.setCls_cch (m : Mach) (c : Nat) (v : Cls) : (m.setCls c v).cch = m.cch := rfl
@[simp] theorem Mach.setCls_ecc (m : Mach) (c : Nat) (v : Cls) : (m.setCls c v).ecc = m.ecc := rfl
@[simp] theorem Mach.setCls_drc (m : Mach) (c : Nat) (v : Cls) : (m.setCls c v).drc = m.drc := rfl
@[simp] theorem Mach.setCls_fwa (m : Mach) (c : Nat) (v : Cls) : (m.setCls c v).fwa = m.fwa := rfl
@[simp] theorem Mach.setCls_pwr (m : Mach) (c : Nat) (v : Cls) : (m.setCls c v).pwr = m.pwr := rfl
@[simp] theorem Mach.setCls_dbg (m : Mach) (c : Nat) (v : Cls) : (m.setCls c v).dbg = m.dbg := rfl
@[simp] theorem Mach.setCls_lands (m : Mach) (c : Nat) (v : Cls) : (m.setCls c v).lands = m.lands := rfl
@[simp] theorem Mach.setCls_mem (m : Mach) (c : Nat) (v : Cls) : (m.setCls c v).mem = m.mem := rfl
@[simp] theorem Mach.setCls_port (m : Mach) (c : Nat) (v : Cls) : (m.setCls c v).port = m.port := rfl
@[simp] theorem Mach.setCls_free (m : Mach) (c : Nat) (v : Cls) : (m.setCls c v).free = m.free := rfl

/-! ### setSlq -/

@[simp] theorem Mach.setSlq_tb (m : Mach) (k : Nat) (v : Slq) : (m.setSlq k v).tb = m.tb := rfl
@[simp] theorem Mach.setSlq_refLost (m : Mach) (k : Nat) (v : Slq) : (m.setSlq k v).refLost = m.refLost := rfl
@[simp] theorem Mach.setSlq_sys (m : Mach) (k : Nat) (v : Slq) : (m.setSlq k v).sys = m.sys := rfl
@[simp] theorem Mach.setSlq_sch (m : Mach) (k : Nat) (v : Slq) : (m.setSlq k v).sch = m.sch := rfl
@[simp] theorem Mach.setSlq_mbx (m : Mach) (k : Nat) (v : Slq) : (m.setSlq k v).mbx = m.mbx := rfl
@[simp] theorem Mach.setSlq_lnk (m : Mach) (k : Nat) (v : Slq) : (m.setSlq k v).lnk = m.lnk := rfl
@[simp] theorem Mach.setSlq_hq (m : Mach) (k : Nat) (v : Slq) : (m.setSlq k v).hq = m.hq := rfl
@[simp] theorem Mach.setSlq_slc (m : Mach) (k : Nat) (v : Slq) : (m.setSlq k v).slc = m.slc := rfl
@[simp] theorem Mach.setSlq_map (m : Mach) (k : Nat) (v : Slq) : (m.setSlq k v).map = m.map := rfl
@[simp] theorem Mach.setSlq_fch (m : Mach) (k : Nat) (v : Slq) : (m.setSlq k v).fch = m.fch := rfl
@[simp] theorem Mach.setSlq_eng (m : Mach) (k : Nat) (v : Slq) : (m.setSlq k v).eng = m.eng := rfl
@[simp] theorem Mach.setSlq_dgs (m : Mach) (k : Nat) (v : Slq) : (m.setSlq k v).dgs = m.dgs := rfl
@[simp] theorem Mach.setSlq_wnw (m : Mach) (k : Nat) (v : Slq) : (m.setSlq k v).wnw = m.wnw := rfl
@[simp] theorem Mach.setSlq_scans (m : Mach) (k : Nat) (v : Slq) : (m.setSlq k v).scans = m.scans := rfl
@[simp] theorem Mach.setSlq_cch (m : Mach) (k : Nat) (v : Slq) : (m.setSlq k v).cch = m.cch := rfl
@[simp] theorem Mach.setSlq_ecc (m : Mach) (k : Nat) (v : Slq) : (m.setSlq k v).ecc = m.ecc := rfl
@[simp] theorem Mach.setSlq_drc (m : Mach) (k : Nat) (v : Slq) : (m.setSlq k v).drc = m.drc := rfl
@[simp] theorem Mach.setSlq_fwa (m : Mach) (k : Nat) (v : Slq) : (m.setSlq k v).fwa = m.fwa := rfl
@[simp] theorem Mach.setSlq_pwr (m : Mach) (k : Nat) (v : Slq) : (m.setSlq k v).pwr = m.pwr := rfl
@[simp] theorem Mach.setSlq_dbg (m : Mach) (k : Nat) (v : Slq) : (m.setSlq k v).dbg = m.dbg := rfl
@[simp] theorem Mach.setSlq_lands (m : Mach) (k : Nat) (v : Slq) : (m.setSlq k v).lands = m.lands := rfl
@[simp] theorem Mach.setSlq_mem (m : Mach) (k : Nat) (v : Slq) : (m.setSlq k v).mem = m.mem := rfl
@[simp] theorem Mach.setSlq_port (m : Mach) (k : Nat) (v : Slq) : (m.setSlq k v).port = m.port := rfl
@[simp] theorem Mach.setSlq_free (m : Mach) (k : Nat) (v : Slq) : (m.setSlq k v).free = m.free := rfl

/-! ### setLedger -/

@[simp] theorem Mach.setLedger_tb (m : Mach) (k : Nat) (v : Ledger) : (m.setLedger k v).tb = m.tb := rfl
@[simp] theorem Mach.setLedger_refLost (m : Mach) (k : Nat) (v : Ledger) : (m.setLedger k v).refLost = m.refLost := rfl
@[simp] theorem Mach.setLedger_sys (m : Mach) (k : Nat) (v : Ledger) : (m.setLedger k v).sys = m.sys := rfl
@[simp] theorem Mach.setLedger_sch (m : Mach) (k : Nat) (v : Ledger) : (m.setLedger k v).sch = m.sch := rfl
@[simp] theorem Mach.setLedger_mbx (m : Mach) (k : Nat) (v : Ledger) : (m.setLedger k v).mbx = m.mbx := rfl
@[simp] theorem Mach.setLedger_lnk (m : Mach) (k : Nat) (v : Ledger) : (m.setLedger k v).lnk = m.lnk := rfl
@[simp] theorem Mach.setLedger_hq (m : Mach) (k : Nat) (v : Ledger) : (m.setLedger k v).hq = m.hq := rfl
@[simp] theorem Mach.setLedger_slc (m : Mach) (k : Nat) (v : Ledger) : (m.setLedger k v).slc = m.slc := rfl
@[simp] theorem Mach.setLedger_map (m : Mach) (k : Nat) (v : Ledger) : (m.setLedger k v).map = m.map := rfl
@[simp] theorem Mach.setLedger_fch (m : Mach) (k : Nat) (v : Ledger) : (m.setLedger k v).fch = m.fch := rfl
@[simp] theorem Mach.setLedger_eng (m : Mach) (k : Nat) (v : Ledger) : (m.setLedger k v).eng = m.eng := rfl
@[simp] theorem Mach.setLedger_dgs (m : Mach) (k : Nat) (v : Ledger) : (m.setLedger k v).dgs = m.dgs := rfl
@[simp] theorem Mach.setLedger_wnw (m : Mach) (k : Nat) (v : Ledger) : (m.setLedger k v).wnw = m.wnw := rfl
@[simp] theorem Mach.setLedger_scans (m : Mach) (k : Nat) (v : Ledger) : (m.setLedger k v).scans = m.scans := rfl
@[simp] theorem Mach.setLedger_cch (m : Mach) (k : Nat) (v : Ledger) : (m.setLedger k v).cch = m.cch := rfl
@[simp] theorem Mach.setLedger_ecc (m : Mach) (k : Nat) (v : Ledger) : (m.setLedger k v).ecc = m.ecc := rfl
@[simp] theorem Mach.setLedger_drc (m : Mach) (k : Nat) (v : Ledger) : (m.setLedger k v).drc = m.drc := rfl
@[simp] theorem Mach.setLedger_fwa (m : Mach) (k : Nat) (v : Ledger) : (m.setLedger k v).fwa = m.fwa := rfl
@[simp] theorem Mach.setLedger_pwr (m : Mach) (k : Nat) (v : Ledger) : (m.setLedger k v).pwr = m.pwr := rfl
@[simp] theorem Mach.setLedger_dbg (m : Mach) (k : Nat) (v : Ledger) : (m.setLedger k v).dbg = m.dbg := rfl
@[simp] theorem Mach.setLedger_lands (m : Mach) (k : Nat) (v : Ledger) : (m.setLedger k v).lands = m.lands := rfl
@[simp] theorem Mach.setLedger_mem (m : Mach) (k : Nat) (v : Ledger) : (m.setLedger k v).mem = m.mem := rfl
@[simp] theorem Mach.setLedger_port (m : Mach) (k : Nat) (v : Ledger) : (m.setLedger k v).port = m.port := rfl
@[simp] theorem Mach.setLedger_free (m : Mach) (k : Nat) (v : Ledger) : (m.setLedger k v).free = m.free := rfl

/-! ### setQp -/

@[simp] theorem Mach.setQp_tb (m : Mach) (q : Nat) (v : Qp) : (m.setQp q v).tb = m.tb := rfl
@[simp] theorem Mach.setQp_refLost (m : Mach) (q : Nat) (v : Qp) : (m.setQp q v).refLost = m.refLost := rfl
@[simp] theorem Mach.setQp_sys (m : Mach) (q : Nat) (v : Qp) : (m.setQp q v).sys = m.sys := rfl
@[simp] theorem Mach.setQp_grn (m : Mach) (q : Nat) (v : Qp) : (m.setQp q v).grn = m.grn := rfl
@[simp] theorem Mach.setQp_sch (m : Mach) (q : Nat) (v : Qp) : (m.setQp q v).sch = m.sch := rfl
@[simp] theorem Mach.setQp_mbx (m : Mach) (q : Nat) (v : Qp) : (m.setQp q v).mbx = m.mbx := rfl
@[simp] theorem Mach.setQp_lnk (m : Mach) (q : Nat) (v : Qp) : (m.setQp q v).lnk = m.lnk := rfl
@[simp] theorem Mach.setQp_slc (m : Mach) (q : Nat) (v : Qp) : (m.setQp q v).slc = m.slc := rfl
@[simp] theorem Mach.setQp_map (m : Mach) (q : Nat) (v : Qp) : (m.setQp q v).map = m.map := rfl
@[simp] theorem Mach.setQp_fch (m : Mach) (q : Nat) (v : Qp) : (m.setQp q v).fch = m.fch := rfl
@[simp] theorem Mach.setQp_eng (m : Mach) (q : Nat) (v : Qp) : (m.setQp q v).eng = m.eng := rfl
@[simp] theorem Mach.setQp_dgs (m : Mach) (q : Nat) (v : Qp) : (m.setQp q v).dgs = m.dgs := rfl
@[simp] theorem Mach.setQp_wnw (m : Mach) (q : Nat) (v : Qp) : (m.setQp q v).wnw = m.wnw := rfl
@[simp] theorem Mach.setQp_scans (m : Mach) (q : Nat) (v : Qp) : (m.setQp q v).scans = m.scans := rfl
@[simp] theorem Mach.setQp_cch (m : Mach) (q : Nat) (v : Qp) : (m.setQp q v).cch = m.cch := rfl
@[simp] theorem Mach.setQp_ecc (m : Mach) (q : Nat) (v : Qp) : (m.setQp q v).ecc = m.ecc := rfl
@[simp] theorem Mach.setQp_drc (m : Mach) (q : Nat) (v : Qp) : (m.setQp q v).drc = m.drc := rfl
@[simp] theorem Mach.setQp_fwa (m : Mach) (q : Nat) (v : Qp) : (m.setQp q v).fwa = m.fwa := rfl
@[simp] theorem Mach.setQp_pwr (m : Mach) (q : Nat) (v : Qp) : (m.setQp q v).pwr = m.pwr := rfl
@[simp] theorem Mach.setQp_dbg (m : Mach) (q : Nat) (v : Qp) : (m.setQp q v).dbg = m.dbg := rfl
@[simp] theorem Mach.setQp_lands (m : Mach) (q : Nat) (v : Qp) : (m.setQp q v).lands = m.lands := rfl
@[simp] theorem Mach.setQp_mem (m : Mach) (q : Nat) (v : Qp) : (m.setQp q v).mem = m.mem := rfl
@[simp] theorem Mach.setQp_port (m : Mach) (q : Nat) (v : Qp) : (m.setQp q v).port = m.port := rfl
@[simp] theorem Mach.setQp_free (m : Mach) (q : Nat) (v : Qp) : (m.setQp q v).free = m.free := rfl

/-! ### setCmd -/

@[simp] theorem Mach.setCmd_tb (m : Mach) (t : Nat) (v : Cmd) : (m.setCmd t v).tb = m.tb := rfl
@[simp] theorem Mach.setCmd_refLost (m : Mach) (t : Nat) (v : Cmd) : (m.setCmd t v).refLost = m.refLost := rfl
@[simp] theorem Mach.setCmd_sys (m : Mach) (t : Nat) (v : Cmd) : (m.setCmd t v).sys = m.sys := rfl
@[simp] theorem Mach.setCmd_grn (m : Mach) (t : Nat) (v : Cmd) : (m.setCmd t v).grn = m.grn := rfl
@[simp] theorem Mach.setCmd_sch (m : Mach) (t : Nat) (v : Cmd) : (m.setCmd t v).sch = m.sch := rfl
@[simp] theorem Mach.setCmd_mbx (m : Mach) (t : Nat) (v : Cmd) : (m.setCmd t v).mbx = m.mbx := rfl
@[simp] theorem Mach.setCmd_lnk (m : Mach) (t : Nat) (v : Cmd) : (m.setCmd t v).lnk = m.lnk := rfl
@[simp] theorem Mach.setCmd_slc (m : Mach) (t : Nat) (v : Cmd) : (m.setCmd t v).slc = m.slc := rfl
@[simp] theorem Mach.setCmd_map (m : Mach) (t : Nat) (v : Cmd) : (m.setCmd t v).map = m.map := rfl
@[simp] theorem Mach.setCmd_fch (m : Mach) (t : Nat) (v : Cmd) : (m.setCmd t v).fch = m.fch := rfl
@[simp] theorem Mach.setCmd_eng (m : Mach) (t : Nat) (v : Cmd) : (m.setCmd t v).eng = m.eng := rfl
@[simp] theorem Mach.setCmd_dgs (m : Mach) (t : Nat) (v : Cmd) : (m.setCmd t v).dgs = m.dgs := rfl
@[simp] theorem Mach.setCmd_wnw (m : Mach) (t : Nat) (v : Cmd) : (m.setCmd t v).wnw = m.wnw := rfl
@[simp] theorem Mach.setCmd_scans (m : Mach) (t : Nat) (v : Cmd) : (m.setCmd t v).scans = m.scans := rfl
@[simp] theorem Mach.setCmd_cch (m : Mach) (t : Nat) (v : Cmd) : (m.setCmd t v).cch = m.cch := rfl
@[simp] theorem Mach.setCmd_ecc (m : Mach) (t : Nat) (v : Cmd) : (m.setCmd t v).ecc = m.ecc := rfl
@[simp] theorem Mach.setCmd_drc (m : Mach) (t : Nat) (v : Cmd) : (m.setCmd t v).drc = m.drc := rfl
@[simp] theorem Mach.setCmd_fwa (m : Mach) (t : Nat) (v : Cmd) : (m.setCmd t v).fwa = m.fwa := rfl
@[simp] theorem Mach.setCmd_pwr (m : Mach) (t : Nat) (v : Cmd) : (m.setCmd t v).pwr = m.pwr := rfl
@[simp] theorem Mach.setCmd_dbg (m : Mach) (t : Nat) (v : Cmd) : (m.setCmd t v).dbg = m.dbg := rfl
@[simp] theorem Mach.setCmd_lands (m : Mach) (t : Nat) (v : Cmd) : (m.setCmd t v).lands = m.lands := rfl
@[simp] theorem Mach.setCmd_mem (m : Mach) (t : Nat) (v : Cmd) : (m.setCmd t v).mem = m.mem := rfl
@[simp] theorem Mach.setCmd_port (m : Mach) (t : Nat) (v : Cmd) : (m.setCmd t v).port = m.port := rfl
@[simp] theorem Mach.setCmd_free (m : Mach) (t : Nat) (v : Cmd) : (m.setCmd t v).free = m.free := rfl

/-! ### setSlice -/

@[simp] theorem Mach.setSlice_tb (m : Mach) (k : Nat) (v : Slice) : (m.setSlice k v).tb = m.tb := rfl
@[simp] theorem Mach.setSlice_refLost (m : Mach) (k : Nat) (v : Slice) : (m.setSlice k v).refLost = m.refLost := rfl
@[simp] theorem Mach.setSlice_sys (m : Mach) (k : Nat) (v : Slice) : (m.setSlice k v).sys = m.sys := rfl
@[simp] theorem Mach.setSlice_grn (m : Mach) (k : Nat) (v : Slice) : (m.setSlice k v).grn = m.grn := rfl
@[simp] theorem Mach.setSlice_sch (m : Mach) (k : Nat) (v : Slice) : (m.setSlice k v).sch = m.sch := rfl
@[simp] theorem Mach.setSlice_mbx (m : Mach) (k : Nat) (v : Slice) : (m.setSlice k v).mbx = m.mbx := rfl
@[simp] theorem Mach.setSlice_lnk (m : Mach) (k : Nat) (v : Slice) : (m.setSlice k v).lnk = m.lnk := rfl
@[simp] theorem Mach.setSlice_hq (m : Mach) (k : Nat) (v : Slice) : (m.setSlice k v).hq = m.hq := rfl
@[simp] theorem Mach.setSlice_map (m : Mach) (k : Nat) (v : Slice) : (m.setSlice k v).map = m.map := rfl
@[simp] theorem Mach.setSlice_fch (m : Mach) (k : Nat) (v : Slice) : (m.setSlice k v).fch = m.fch := rfl
@[simp] theorem Mach.setSlice_eng (m : Mach) (k : Nat) (v : Slice) : (m.setSlice k v).eng = m.eng := rfl
@[simp] theorem Mach.setSlice_dgs (m : Mach) (k : Nat) (v : Slice) : (m.setSlice k v).dgs = m.dgs := rfl
@[simp] theorem Mach.setSlice_wnw (m : Mach) (k : Nat) (v : Slice) : (m.setSlice k v).wnw = m.wnw := rfl
@[simp] theorem Mach.setSlice_scans (m : Mach) (k : Nat) (v : Slice) : (m.setSlice k v).scans = m.scans := rfl
@[simp] theorem Mach.setSlice_cch (m : Mach) (k : Nat) (v : Slice) : (m.setSlice k v).cch = m.cch := rfl
@[simp] theorem Mach.setSlice_ecc (m : Mach) (k : Nat) (v : Slice) : (m.setSlice k v).ecc = m.ecc := rfl
@[simp] theorem Mach.setSlice_drc (m : Mach) (k : Nat) (v : Slice) : (m.setSlice k v).drc = m.drc := rfl
@[simp] theorem Mach.setSlice_fwa (m : Mach) (k : Nat) (v : Slice) : (m.setSlice k v).fwa = m.fwa := rfl
@[simp] theorem Mach.setSlice_pwr (m : Mach) (k : Nat) (v : Slice) : (m.setSlice k v).pwr = m.pwr := rfl
@[simp] theorem Mach.setSlice_dbg (m : Mach) (k : Nat) (v : Slice) : (m.setSlice k v).dbg = m.dbg := rfl
@[simp] theorem Mach.setSlice_lands (m : Mach) (k : Nat) (v : Slice) : (m.setSlice k v).lands = m.lands := rfl
@[simp] theorem Mach.setSlice_mem (m : Mach) (k : Nat) (v : Slice) : (m.setSlice k v).mem = m.mem := rfl
@[simp] theorem Mach.setSlice_port (m : Mach) (k : Nat) (v : Slice) : (m.setSlice k v).port = m.port := rfl
@[simp] theorem Mach.setSlice_free (m : Mach) (k : Nat) (v : Slice) : (m.setSlice k v).free = m.free := rfl

/-! ### setEngine -/

@[simp] theorem Mach.setEngine_tb (m : Mach) (p : Nat) (v : Eng) : (m.setEngine p v).tb = m.tb := rfl
@[simp] theorem Mach.setEngine_refLost (m : Mach) (p : Nat) (v : Eng) : (m.setEngine p v).refLost = m.refLost := rfl
@[simp] theorem Mach.setEngine_sys (m : Mach) (p : Nat) (v : Eng) : (m.setEngine p v).sys = m.sys := rfl
@[simp] theorem Mach.setEngine_grn (m : Mach) (p : Nat) (v : Eng) : (m.setEngine p v).grn = m.grn := rfl
@[simp] theorem Mach.setEngine_sch (m : Mach) (p : Nat) (v : Eng) : (m.setEngine p v).sch = m.sch := rfl
@[simp] theorem Mach.setEngine_mbx (m : Mach) (p : Nat) (v : Eng) : (m.setEngine p v).mbx = m.mbx := rfl
@[simp] theorem Mach.setEngine_lnk (m : Mach) (p : Nat) (v : Eng) : (m.setEngine p v).lnk = m.lnk := rfl
@[simp] theorem Mach.setEngine_hq (m : Mach) (p : Nat) (v : Eng) : (m.setEngine p v).hq = m.hq := rfl
@[simp] theorem Mach.setEngine_slc (m : Mach) (p : Nat) (v : Eng) : (m.setEngine p v).slc = m.slc := rfl
@[simp] theorem Mach.setEngine_map (m : Mach) (p : Nat) (v : Eng) : (m.setEngine p v).map = m.map := rfl
@[simp] theorem Mach.setEngine_fch (m : Mach) (p : Nat) (v : Eng) : (m.setEngine p v).fch = m.fch := rfl
@[simp] theorem Mach.setEngine_dgs (m : Mach) (p : Nat) (v : Eng) : (m.setEngine p v).dgs = m.dgs := rfl
@[simp] theorem Mach.setEngine_wnw (m : Mach) (p : Nat) (v : Eng) : (m.setEngine p v).wnw = m.wnw := rfl
@[simp] theorem Mach.setEngine_scans (m : Mach) (p : Nat) (v : Eng) : (m.setEngine p v).scans = m.scans := rfl
@[simp] theorem Mach.setEngine_cch (m : Mach) (p : Nat) (v : Eng) : (m.setEngine p v).cch = m.cch := rfl
@[simp] theorem Mach.setEngine_ecc (m : Mach) (p : Nat) (v : Eng) : (m.setEngine p v).ecc = m.ecc := rfl
@[simp] theorem Mach.setEngine_drc (m : Mach) (p : Nat) (v : Eng) : (m.setEngine p v).drc = m.drc := rfl
@[simp] theorem Mach.setEngine_fwa (m : Mach) (p : Nat) (v : Eng) : (m.setEngine p v).fwa = m.fwa := rfl
@[simp] theorem Mach.setEngine_pwr (m : Mach) (p : Nat) (v : Eng) : (m.setEngine p v).pwr = m.pwr := rfl
@[simp] theorem Mach.setEngine_dbg (m : Mach) (p : Nat) (v : Eng) : (m.setEngine p v).dbg = m.dbg := rfl
@[simp] theorem Mach.setEngine_lands (m : Mach) (p : Nat) (v : Eng) : (m.setEngine p v).lands = m.lands := rfl
@[simp] theorem Mach.setEngine_mem (m : Mach) (p : Nat) (v : Eng) : (m.setEngine p v).mem = m.mem := rfl
@[simp] theorem Mach.setEngine_port (m : Mach) (p : Nat) (v : Eng) : (m.setEngine p v).port = m.port := rfl
@[simp] theorem Mach.setEngine_free (m : Mach) (p : Nat) (v : Eng) : (m.setEngine p v).free = m.free := rfl

/-! ### setDie -/

@[simp] theorem Mach.setDie_tb (m : Mach) (d : Nat) (v : Die) : (m.setDie d v).tb = m.tb := rfl
@[simp] theorem Mach.setDie_refLost (m : Mach) (d : Nat) (v : Die) : (m.setDie d v).refLost = m.refLost := rfl
@[simp] theorem Mach.setDie_sys (m : Mach) (d : Nat) (v : Die) : (m.setDie d v).sys = m.sys := rfl
@[simp] theorem Mach.setDie_grn (m : Mach) (d : Nat) (v : Die) : (m.setDie d v).grn = m.grn := rfl
@[simp] theorem Mach.setDie_sch (m : Mach) (d : Nat) (v : Die) : (m.setDie d v).sch = m.sch := rfl
@[simp] theorem Mach.setDie_mbx (m : Mach) (d : Nat) (v : Die) : (m.setDie d v).mbx = m.mbx := rfl
@[simp] theorem Mach.setDie_lnk (m : Mach) (d : Nat) (v : Die) : (m.setDie d v).lnk = m.lnk := rfl
@[simp] theorem Mach.setDie_hq (m : Mach) (d : Nat) (v : Die) : (m.setDie d v).hq = m.hq := rfl
@[simp] theorem Mach.setDie_slc (m : Mach) (d : Nat) (v : Die) : (m.setDie d v).slc = m.slc := rfl
@[simp] theorem Mach.setDie_map (m : Mach) (d : Nat) (v : Die) : (m.setDie d v).map = m.map := rfl
@[simp] theorem Mach.setDie_eng (m : Mach) (d : Nat) (v : Die) : (m.setDie d v).eng = m.eng := rfl
@[simp] theorem Mach.setDie_dgs (m : Mach) (d : Nat) (v : Die) : (m.setDie d v).dgs = m.dgs := rfl
@[simp] theorem Mach.setDie_wnw (m : Mach) (d : Nat) (v : Die) : (m.setDie d v).wnw = m.wnw := rfl
@[simp] theorem Mach.setDie_scans (m : Mach) (d : Nat) (v : Die) : (m.setDie d v).scans = m.scans := rfl
@[simp] theorem Mach.setDie_cch (m : Mach) (d : Nat) (v : Die) : (m.setDie d v).cch = m.cch := rfl
@[simp] theorem Mach.setDie_ecc (m : Mach) (d : Nat) (v : Die) : (m.setDie d v).ecc = m.ecc := rfl
@[simp] theorem Mach.setDie_drc (m : Mach) (d : Nat) (v : Die) : (m.setDie d v).drc = m.drc := rfl
@[simp] theorem Mach.setDie_fwa (m : Mach) (d : Nat) (v : Die) : (m.setDie d v).fwa = m.fwa := rfl
@[simp] theorem Mach.setDie_pwr (m : Mach) (d : Nat) (v : Die) : (m.setDie d v).pwr = m.pwr := rfl
@[simp] theorem Mach.setDie_dbg (m : Mach) (d : Nat) (v : Die) : (m.setDie d v).dbg = m.dbg := rfl
@[simp] theorem Mach.setDie_lands (m : Mach) (d : Nat) (v : Die) : (m.setDie d v).lands = m.lands := rfl
@[simp] theorem Mach.setDie_mem (m : Mach) (d : Nat) (v : Die) : (m.setDie d v).mem = m.mem := rfl
@[simp] theorem Mach.setDie_port (m : Mach) (d : Nat) (v : Die) : (m.setDie d v).port = m.port := rfl
@[simp] theorem Mach.setDie_free (m : Mach) (d : Nat) (v : Die) : (m.setDie d v).free = m.free := rfl

/-! ### setChan -/

@[simp] theorem Mach.setChan_tb (m : Mach) (n : Nat) (v : Chan) : (m.setChan n v).tb = m.tb := rfl
@[simp] theorem Mach.setChan_refLost (m : Mach) (n : Nat) (v : Chan) : (m.setChan n v).refLost = m.refLost := rfl
@[simp] theorem Mach.setChan_sys (m : Mach) (n : Nat) (v : Chan) : (m.setChan n v).sys = m.sys := rfl
@[simp] theorem Mach.setChan_grn (m : Mach) (n : Nat) (v : Chan) : (m.setChan n v).grn = m.grn := rfl
@[simp] theorem Mach.setChan_sch (m : Mach) (n : Nat) (v : Chan) : (m.setChan n v).sch = m.sch := rfl
@[simp] theorem Mach.setChan_mbx (m : Mach) (n : Nat) (v : Chan) : (m.setChan n v).mbx = m.mbx := rfl
@[simp] theorem Mach.setChan_lnk (m : Mach) (n : Nat) (v : Chan) : (m.setChan n v).lnk = m.lnk := rfl
@[simp] theorem Mach.setChan_hq (m : Mach) (n : Nat) (v : Chan) : (m.setChan n v).hq = m.hq := rfl
@[simp] theorem Mach.setChan_slc (m : Mach) (n : Nat) (v : Chan) : (m.setChan n v).slc = m.slc := rfl
@[simp] theorem Mach.setChan_map (m : Mach) (n : Nat) (v : Chan) : (m.setChan n v).map = m.map := rfl
@[simp] theorem Mach.setChan_eng (m : Mach) (n : Nat) (v : Chan) : (m.setChan n v).eng = m.eng := rfl
@[simp] theorem Mach.setChan_dgs (m : Mach) (n : Nat) (v : Chan) : (m.setChan n v).dgs = m.dgs := rfl
@[simp] theorem Mach.setChan_wnw (m : Mach) (n : Nat) (v : Chan) : (m.setChan n v).wnw = m.wnw := rfl
@[simp] theorem Mach.setChan_scans (m : Mach) (n : Nat) (v : Chan) : (m.setChan n v).scans = m.scans := rfl
@[simp] theorem Mach.setChan_cch (m : Mach) (n : Nat) (v : Chan) : (m.setChan n v).cch = m.cch := rfl
@[simp] theorem Mach.setChan_ecc (m : Mach) (n : Nat) (v : Chan) : (m.setChan n v).ecc = m.ecc := rfl
@[simp] theorem Mach.setChan_drc (m : Mach) (n : Nat) (v : Chan) : (m.setChan n v).drc = m.drc := rfl
@[simp] theorem Mach.setChan_fwa (m : Mach) (n : Nat) (v : Chan) : (m.setChan n v).fwa = m.fwa := rfl
@[simp] theorem Mach.setChan_pwr (m : Mach) (n : Nat) (v : Chan) : (m.setChan n v).pwr = m.pwr := rfl
@[simp] theorem Mach.setChan_dbg (m : Mach) (n : Nat) (v : Chan) : (m.setChan n v).dbg = m.dbg := rfl
@[simp] theorem Mach.setChan_lands (m : Mach) (n : Nat) (v : Chan) : (m.setChan n v).lands = m.lands := rfl
@[simp] theorem Mach.setChan_mem (m : Mach) (n : Nat) (v : Chan) : (m.setChan n v).mem = m.mem := rfl
@[simp] theorem Mach.setChan_port (m : Mach) (n : Nat) (v : Chan) : (m.setChan n v).port = m.port := rfl
@[simp] theorem Mach.setChan_free (m : Mach) (n : Nat) (v : Chan) : (m.setChan n v).free = m.free := rfl

/-! ### setRank -/

@[simp] theorem Mach.setRank_tb (m : Mach) (q : Nat) (v : Rank) : (m.setRank q v).tb = m.tb := rfl
@[simp] theorem Mach.setRank_refLost (m : Mach) (q : Nat) (v : Rank) : (m.setRank q v).refLost = m.refLost := rfl
@[simp] theorem Mach.setRank_sys (m : Mach) (q : Nat) (v : Rank) : (m.setRank q v).sys = m.sys := rfl
@[simp] theorem Mach.setRank_grn (m : Mach) (q : Nat) (v : Rank) : (m.setRank q v).grn = m.grn := rfl
@[simp] theorem Mach.setRank_sch (m : Mach) (q : Nat) (v : Rank) : (m.setRank q v).sch = m.sch := rfl
@[simp] theorem Mach.setRank_mbx (m : Mach) (q : Nat) (v : Rank) : (m.setRank q v).mbx = m.mbx := rfl
@[simp] theorem Mach.setRank_lnk (m : Mach) (q : Nat) (v : Rank) : (m.setRank q v).lnk = m.lnk := rfl
@[simp] theorem Mach.setRank_hq (m : Mach) (q : Nat) (v : Rank) : (m.setRank q v).hq = m.hq := rfl
@[simp] theorem Mach.setRank_slc (m : Mach) (q : Nat) (v : Rank) : (m.setRank q v).slc = m.slc := rfl
@[simp] theorem Mach.setRank_map (m : Mach) (q : Nat) (v : Rank) : (m.setRank q v).map = m.map := rfl
@[simp] theorem Mach.setRank_fch (m : Mach) (q : Nat) (v : Rank) : (m.setRank q v).fch = m.fch := rfl
@[simp] theorem Mach.setRank_eng (m : Mach) (q : Nat) (v : Rank) : (m.setRank q v).eng = m.eng := rfl
@[simp] theorem Mach.setRank_dgs (m : Mach) (q : Nat) (v : Rank) : (m.setRank q v).dgs = m.dgs := rfl
@[simp] theorem Mach.setRank_wnw (m : Mach) (q : Nat) (v : Rank) : (m.setRank q v).wnw = m.wnw := rfl
@[simp] theorem Mach.setRank_scans (m : Mach) (q : Nat) (v : Rank) : (m.setRank q v).scans = m.scans := rfl
@[simp] theorem Mach.setRank_cch (m : Mach) (q : Nat) (v : Rank) : (m.setRank q v).cch = m.cch := rfl
@[simp] theorem Mach.setRank_ecc (m : Mach) (q : Nat) (v : Rank) : (m.setRank q v).ecc = m.ecc := rfl
@[simp] theorem Mach.setRank_fwa (m : Mach) (q : Nat) (v : Rank) : (m.setRank q v).fwa = m.fwa := rfl
@[simp] theorem Mach.setRank_pwr (m : Mach) (q : Nat) (v : Rank) : (m.setRank q v).pwr = m.pwr := rfl
@[simp] theorem Mach.setRank_dbg (m : Mach) (q : Nat) (v : Rank) : (m.setRank q v).dbg = m.dbg := rfl
@[simp] theorem Mach.setRank_lands (m : Mach) (q : Nat) (v : Rank) : (m.setRank q v).lands = m.lands := rfl
@[simp] theorem Mach.setRank_mem (m : Mach) (q : Nat) (v : Rank) : (m.setRank q v).mem = m.mem := rfl
@[simp] theorem Mach.setRank_port (m : Mach) (q : Nat) (v : Rank) : (m.setRank q v).port = m.port := rfl
@[simp] theorem Mach.setRank_free (m : Mach) (q : Nat) (v : Rank) : (m.setRank q v).free = m.free := rfl

/-! ### setKey -/

@[simp] theorem Mach.setKey_tb (m : Mach) (k : Nat) (v : Key) : (m.setKey k v).tb = m.tb := rfl
@[simp] theorem Mach.setKey_refLost (m : Mach) (k : Nat) (v : Key) : (m.setKey k v).refLost = m.refLost := rfl
@[simp] theorem Mach.setKey_sys (m : Mach) (k : Nat) (v : Key) : (m.setKey k v).sys = m.sys := rfl
@[simp] theorem Mach.setKey_grn (m : Mach) (k : Nat) (v : Key) : (m.setKey k v).grn = m.grn := rfl
@[simp] theorem Mach.setKey_sch (m : Mach) (k : Nat) (v : Key) : (m.setKey k v).sch = m.sch := rfl
@[simp] theorem Mach.setKey_mbx (m : Mach) (k : Nat) (v : Key) : (m.setKey k v).mbx = m.mbx := rfl
@[simp] theorem Mach.setKey_lnk (m : Mach) (k : Nat) (v : Key) : (m.setKey k v).lnk = m.lnk := rfl
@[simp] theorem Mach.setKey_hq (m : Mach) (k : Nat) (v : Key) : (m.setKey k v).hq = m.hq := rfl
@[simp] theorem Mach.setKey_slc (m : Mach) (k : Nat) (v : Key) : (m.setKey k v).slc = m.slc := rfl
@[simp] theorem Mach.setKey_map (m : Mach) (k : Nat) (v : Key) : (m.setKey k v).map = m.map := rfl
@[simp] theorem Mach.setKey_fch (m : Mach) (k : Nat) (v : Key) : (m.setKey k v).fch = m.fch := rfl
@[simp] theorem Mach.setKey_eng (m : Mach) (k : Nat) (v : Key) : (m.setKey k v).eng = m.eng := rfl
@[simp] theorem Mach.setKey_wnw (m : Mach) (k : Nat) (v : Key) : (m.setKey k v).wnw = m.wnw := rfl
@[simp] theorem Mach.setKey_scans (m : Mach) (k : Nat) (v : Key) : (m.setKey k v).scans = m.scans := rfl
@[simp] theorem Mach.setKey_cch (m : Mach) (k : Nat) (v : Key) : (m.setKey k v).cch = m.cch := rfl
@[simp] theorem Mach.setKey_ecc (m : Mach) (k : Nat) (v : Key) : (m.setKey k v).ecc = m.ecc := rfl
@[simp] theorem Mach.setKey_drc (m : Mach) (k : Nat) (v : Key) : (m.setKey k v).drc = m.drc := rfl
@[simp] theorem Mach.setKey_fwa (m : Mach) (k : Nat) (v : Key) : (m.setKey k v).fwa = m.fwa := rfl
@[simp] theorem Mach.setKey_pwr (m : Mach) (k : Nat) (v : Key) : (m.setKey k v).pwr = m.pwr := rfl
@[simp] theorem Mach.setKey_dbg (m : Mach) (k : Nat) (v : Key) : (m.setKey k v).dbg = m.dbg := rfl
@[simp] theorem Mach.setKey_lands (m : Mach) (k : Nat) (v : Key) : (m.setKey k v).lands = m.lands := rfl
@[simp] theorem Mach.setKey_mem (m : Mach) (k : Nat) (v : Key) : (m.setKey k v).mem = m.mem := rfl
@[simp] theorem Mach.setKey_port (m : Mach) (k : Nat) (v : Key) : (m.setKey k v).port = m.port := rfl
@[simp] theorem Mach.setKey_free (m : Mach) (k : Nat) (v : Key) : (m.setKey k v).free = m.free := rfl

/-! ### setDctx -/

@[simp] theorem Mach.setDctx_tb (m : Mach) (h : Nat) (v : Dctx) : (m.setDctx h v).tb = m.tb := rfl
@[simp] theorem Mach.setDctx_refLost (m : Mach) (h : Nat) (v : Dctx) : (m.setDctx h v).refLost = m.refLost := rfl
@[simp] theorem Mach.setDctx_sys (m : Mach) (h : Nat) (v : Dctx) : (m.setDctx h v).sys = m.sys := rfl
@[simp] theorem Mach.setDctx_grn (m : Mach) (h : Nat) (v : Dctx) : (m.setDctx h v).grn = m.grn := rfl
@[simp] theorem Mach.setDctx_sch (m : Mach) (h : Nat) (v : Dctx) : (m.setDctx h v).sch = m.sch := rfl
@[simp] theorem Mach.setDctx_mbx (m : Mach) (h : Nat) (v : Dctx) : (m.setDctx h v).mbx = m.mbx := rfl
@[simp] theorem Mach.setDctx_lnk (m : Mach) (h : Nat) (v : Dctx) : (m.setDctx h v).lnk = m.lnk := rfl
@[simp] theorem Mach.setDctx_hq (m : Mach) (h : Nat) (v : Dctx) : (m.setDctx h v).hq = m.hq := rfl
@[simp] theorem Mach.setDctx_slc (m : Mach) (h : Nat) (v : Dctx) : (m.setDctx h v).slc = m.slc := rfl
@[simp] theorem Mach.setDctx_map (m : Mach) (h : Nat) (v : Dctx) : (m.setDctx h v).map = m.map := rfl
@[simp] theorem Mach.setDctx_fch (m : Mach) (h : Nat) (v : Dctx) : (m.setDctx h v).fch = m.fch := rfl
@[simp] theorem Mach.setDctx_eng (m : Mach) (h : Nat) (v : Dctx) : (m.setDctx h v).eng = m.eng := rfl
@[simp] theorem Mach.setDctx_wnw (m : Mach) (h : Nat) (v : Dctx) : (m.setDctx h v).wnw = m.wnw := rfl
@[simp] theorem Mach.setDctx_scans (m : Mach) (h : Nat) (v : Dctx) : (m.setDctx h v).scans = m.scans := rfl
@[simp] theorem Mach.setDctx_cch (m : Mach) (h : Nat) (v : Dctx) : (m.setDctx h v).cch = m.cch := rfl
@[simp] theorem Mach.setDctx_ecc (m : Mach) (h : Nat) (v : Dctx) : (m.setDctx h v).ecc = m.ecc := rfl
@[simp] theorem Mach.setDctx_drc (m : Mach) (h : Nat) (v : Dctx) : (m.setDctx h v).drc = m.drc := rfl
@[simp] theorem Mach.setDctx_fwa (m : Mach) (h : Nat) (v : Dctx) : (m.setDctx h v).fwa = m.fwa := rfl
@[simp] theorem Mach.setDctx_pwr (m : Mach) (h : Nat) (v : Dctx) : (m.setDctx h v).pwr = m.pwr := rfl
@[simp] theorem Mach.setDctx_dbg (m : Mach) (h : Nat) (v : Dctx) : (m.setDctx h v).dbg = m.dbg := rfl
@[simp] theorem Mach.setDctx_lands (m : Mach) (h : Nat) (v : Dctx) : (m.setDctx h v).lands = m.lands := rfl
@[simp] theorem Mach.setDctx_mem (m : Mach) (h : Nat) (v : Dctx) : (m.setDctx h v).mem = m.mem := rfl
@[simp] theorem Mach.setDctx_port (m : Mach) (h : Nat) (v : Dctx) : (m.setDctx h v).port = m.port := rfl
@[simp] theorem Mach.setDctx_free (m : Mach) (h : Nat) (v : Dctx) : (m.setDctx h v).free = m.free := rfl

/-! ### setLane -/

@[simp] theorem Mach.setLane_tb (m : Mach) (n : Nat) (v : Lane) : (m.setLane n v).tb = m.tb := rfl
@[simp] theorem Mach.setLane_refLost (m : Mach) (n : Nat) (v : Lane) : (m.setLane n v).refLost = m.refLost := rfl
@[simp] theorem Mach.setLane_sys (m : Mach) (n : Nat) (v : Lane) : (m.setLane n v).sys = m.sys := rfl
@[simp] theorem Mach.setLane_grn (m : Mach) (n : Nat) (v : Lane) : (m.setLane n v).grn = m.grn := rfl
@[simp] theorem Mach.setLane_sch (m : Mach) (n : Nat) (v : Lane) : (m.setLane n v).sch = m.sch := rfl
@[simp] theorem Mach.setLane_mbx (m : Mach) (n : Nat) (v : Lane) : (m.setLane n v).mbx = m.mbx := rfl
@[simp] theorem Mach.setLane_hq (m : Mach) (n : Nat) (v : Lane) : (m.setLane n v).hq = m.hq := rfl
@[simp] theorem Mach.setLane_slc (m : Mach) (n : Nat) (v : Lane) : (m.setLane n v).slc = m.slc := rfl
@[simp] theorem Mach.setLane_map (m : Mach) (n : Nat) (v : Lane) : (m.setLane n v).map = m.map := rfl
@[simp] theorem Mach.setLane_fch (m : Mach) (n : Nat) (v : Lane) : (m.setLane n v).fch = m.fch := rfl
@[simp] theorem Mach.setLane_eng (m : Mach) (n : Nat) (v : Lane) : (m.setLane n v).eng = m.eng := rfl
@[simp] theorem Mach.setLane_dgs (m : Mach) (n : Nat) (v : Lane) : (m.setLane n v).dgs = m.dgs := rfl
@[simp] theorem Mach.setLane_wnw (m : Mach) (n : Nat) (v : Lane) : (m.setLane n v).wnw = m.wnw := rfl
@[simp] theorem Mach.setLane_scans (m : Mach) (n : Nat) (v : Lane) : (m.setLane n v).scans = m.scans := rfl
@[simp] theorem Mach.setLane_cch (m : Mach) (n : Nat) (v : Lane) : (m.setLane n v).cch = m.cch := rfl
@[simp] theorem Mach.setLane_ecc (m : Mach) (n : Nat) (v : Lane) : (m.setLane n v).ecc = m.ecc := rfl
@[simp] theorem Mach.setLane_drc (m : Mach) (n : Nat) (v : Lane) : (m.setLane n v).drc = m.drc := rfl
@[simp] theorem Mach.setLane_fwa (m : Mach) (n : Nat) (v : Lane) : (m.setLane n v).fwa = m.fwa := rfl
@[simp] theorem Mach.setLane_pwr (m : Mach) (n : Nat) (v : Lane) : (m.setLane n v).pwr = m.pwr := rfl
@[simp] theorem Mach.setLane_dbg (m : Mach) (n : Nat) (v : Lane) : (m.setLane n v).dbg = m.dbg := rfl
@[simp] theorem Mach.setLane_lands (m : Mach) (n : Nat) (v : Lane) : (m.setLane n v).lands = m.lands := rfl
@[simp] theorem Mach.setLane_mem (m : Mach) (n : Nat) (v : Lane) : (m.setLane n v).mem = m.mem := rfl
@[simp] theorem Mach.setLane_port (m : Mach) (n : Nat) (v : Lane) : (m.setLane n v).port = m.port := rfl
@[simp] theorem Mach.setLane_free (m : Mach) (n : Nat) (v : Lane) : (m.setLane n v).free = m.free := rfl

/-! ### setMset -/

@[simp] theorem Mach.setMset_tb (m : Mach) (n : Nat) (v : MSet) : (m.setMset n v).tb = m.tb := rfl
@[simp] theorem Mach.setMset_refLost (m : Mach) (n : Nat) (v : MSet) : (m.setMset n v).refLost = m.refLost := rfl
@[simp] theorem Mach.setMset_sys (m : Mach) (n : Nat) (v : MSet) : (m.setMset n v).sys = m.sys := rfl
@[simp] theorem Mach.setMset_grn (m : Mach) (n : Nat) (v : MSet) : (m.setMset n v).grn = m.grn := rfl
@[simp] theorem Mach.setMset_sch (m : Mach) (n : Nat) (v : MSet) : (m.setMset n v).sch = m.sch := rfl
@[simp] theorem Mach.setMset_mbx (m : Mach) (n : Nat) (v : MSet) : (m.setMset n v).mbx = m.mbx := rfl
@[simp] theorem Mach.setMset_lnk (m : Mach) (n : Nat) (v : MSet) : (m.setMset n v).lnk = m.lnk := rfl
@[simp] theorem Mach.setMset_hq (m : Mach) (n : Nat) (v : MSet) : (m.setMset n v).hq = m.hq := rfl
@[simp] theorem Mach.setMset_slc (m : Mach) (n : Nat) (v : MSet) : (m.setMset n v).slc = m.slc := rfl
@[simp] theorem Mach.setMset_fch (m : Mach) (n : Nat) (v : MSet) : (m.setMset n v).fch = m.fch := rfl
@[simp] theorem Mach.setMset_eng (m : Mach) (n : Nat) (v : MSet) : (m.setMset n v).eng = m.eng := rfl
@[simp] theorem Mach.setMset_dgs (m : Mach) (n : Nat) (v : MSet) : (m.setMset n v).dgs = m.dgs := rfl
@[simp] theorem Mach.setMset_wnw (m : Mach) (n : Nat) (v : MSet) : (m.setMset n v).wnw = m.wnw := rfl
@[simp] theorem Mach.setMset_scans (m : Mach) (n : Nat) (v : MSet) : (m.setMset n v).scans = m.scans := rfl
@[simp] theorem Mach.setMset_cch (m : Mach) (n : Nat) (v : MSet) : (m.setMset n v).cch = m.cch := rfl
@[simp] theorem Mach.setMset_ecc (m : Mach) (n : Nat) (v : MSet) : (m.setMset n v).ecc = m.ecc := rfl
@[simp] theorem Mach.setMset_drc (m : Mach) (n : Nat) (v : MSet) : (m.setMset n v).drc = m.drc := rfl
@[simp] theorem Mach.setMset_fwa (m : Mach) (n : Nat) (v : MSet) : (m.setMset n v).fwa = m.fwa := rfl
@[simp] theorem Mach.setMset_pwr (m : Mach) (n : Nat) (v : MSet) : (m.setMset n v).pwr = m.pwr := rfl
@[simp] theorem Mach.setMset_dbg (m : Mach) (n : Nat) (v : MSet) : (m.setMset n v).dbg = m.dbg := rfl
@[simp] theorem Mach.setMset_lands (m : Mach) (n : Nat) (v : MSet) : (m.setMset n v).lands = m.lands := rfl
@[simp] theorem Mach.setMset_mem (m : Mach) (n : Nat) (v : MSet) : (m.setMset n v).mem = m.mem := rfl
@[simp] theorem Mach.setMset_port (m : Mach) (n : Nat) (v : MSet) : (m.setMset n v).port = m.port := rfl
@[simp] theorem Mach.setMset_free (m : Mach) (n : Nat) (v : MSet) : (m.setMset n v).free = m.free := rfl

/-! ### answer -/

@[simp] theorem Mach.answer_tb (m : Mach) (a : Answer) : (m.answer a).tb = m.tb := rfl
@[simp] theorem Mach.answer_refLost (m : Mach) (a : Answer) : (m.answer a).refLost = m.refLost := rfl
@[simp] theorem Mach.answer_sys (m : Mach) (a : Answer) : (m.answer a).sys = m.sys := rfl
@[simp] theorem Mach.answer_grn (m : Mach) (a : Answer) : (m.answer a).grn = m.grn := rfl
@[simp] theorem Mach.answer_sch (m : Mach) (a : Answer) : (m.answer a).sch = m.sch := rfl
@[simp] theorem Mach.answer_mbx (m : Mach) (a : Answer) : (m.answer a).mbx = m.mbx := rfl
@[simp] theorem Mach.answer_lnk (m : Mach) (a : Answer) : (m.answer a).lnk = m.lnk := rfl
@[simp] theorem Mach.answer_hq (m : Mach) (a : Answer) : (m.answer a).hq = m.hq := rfl
@[simp] theorem Mach.answer_slc (m : Mach) (a : Answer) : (m.answer a).slc = m.slc := rfl
@[simp] theorem Mach.answer_map (m : Mach) (a : Answer) : (m.answer a).map = m.map := rfl
@[simp] theorem Mach.answer_fch (m : Mach) (a : Answer) : (m.answer a).fch = m.fch := rfl
@[simp] theorem Mach.answer_eng (m : Mach) (a : Answer) : (m.answer a).eng = m.eng := rfl
@[simp] theorem Mach.answer_dgs (m : Mach) (a : Answer) : (m.answer a).dgs = m.dgs := rfl
@[simp] theorem Mach.answer_wnw (m : Mach) (a : Answer) : (m.answer a).wnw = m.wnw := rfl
@[simp] theorem Mach.answer_scans (m : Mach) (a : Answer) : (m.answer a).scans = m.scans := rfl
@[simp] theorem Mach.answer_cch (m : Mach) (a : Answer) : (m.answer a).cch = m.cch := rfl
@[simp] theorem Mach.answer_ecc (m : Mach) (a : Answer) : (m.answer a).ecc = m.ecc := rfl
@[simp] theorem Mach.answer_drc (m : Mach) (a : Answer) : (m.answer a).drc = m.drc := rfl
@[simp] theorem Mach.answer_fwa (m : Mach) (a : Answer) : (m.answer a).fwa = m.fwa := rfl
@[simp] theorem Mach.answer_pwr (m : Mach) (a : Answer) : (m.answer a).pwr = m.pwr := rfl
@[simp] theorem Mach.answer_dbg (m : Mach) (a : Answer) : (m.answer a).dbg = m.dbg := rfl
@[simp] theorem Mach.answer_lands (m : Mach) (a : Answer) : (m.answer a).lands = m.lands := rfl
@[simp] theorem Mach.answer_mem (m : Mach) (a : Answer) : (m.answer a).mem = m.mem := rfl
@[simp] theorem Mach.answer_free (m : Mach) (a : Answer) : (m.answer a).free = m.free := rfl

/-! ### Reads after updates -/

@[simp] theorem Mach.thr_setThr_self (m : Mach) (k : Nat) (v : Thr) : (m.setThr k v).thr k = v := tget_tset_self _ v _ k
theorem Mach.thr_setThr_ne (m : Mach) (v : Thr) {k j : Nat} (h : j ≠ k) : (m.setThr k v).thr j = m.thr j := tget_tset_ne _ v _ h
@[simp] theorem Mach.core_setCore_self (m : Mach) (c : Nat) (v : Core) : (m.setCore c v).core c = v := tget_tset_self _ v _ c
theorem Mach.core_setCore_ne (m : Mach) (v : Core) {c j : Nat} (h : j ≠ c) : (m.setCore c v).core j = m.core j := tget_tset_ne _ v _ h
@[simp] theorem Mach.evt_setEvt_self (m : Mach) (e : Nat) (v : Evt) : (m.setEvt e v).evt e = v := tget_tset_self _ v _ e
theorem Mach.evt_setEvt_ne (m : Mach) (v : Evt) {e j : Nat} (h : j ≠ e) : (m.setEvt e v).evt j = m.evt j := tget_tset_ne _ v _ h
@[simp] theorem Mach.box_setBox_self (m : Mach) (k : Nat) (v : Box) : (m.setBox k v).box k = v := tget_tset_self _ v _ k
theorem Mach.box_setBox_ne (m : Mach) (v : Box) {k j : Nat} (h : j ≠ k) : (m.setBox k v).box j = m.box j := tget_tset_ne _ v _ h
@[simp] theorem Mach.lock_setLock_self (m : Mach) (n : Nat) (v : Lock) : (m.setLock n v).lock n = v := tget_tset_self _ v _ n
theorem Mach.lock_setLock_ne (m : Mach) (v : Lock) {n j : Nat} (h : j ≠ n) : (m.setLock n v).lock j = m.lock j := tget_tset_ne _ v _ h
@[simp] theorem Mach.buf_setBuf_self (m : Mach) (k : Nat) (v : Buf) : (m.setBuf k v).buf k = v := tget_tset_self _ v _ k
theorem Mach.buf_setBuf_ne (m : Mach) (v : Buf) {k j : Nat} (h : j ≠ k) : (m.setBuf k v).buf j = m.buf j := tget_tset_ne _ v _ h
@[simp] theorem Mach.cls_setCls_self (m : Mach) (c : Nat) (v : Cls) : (m.setCls c v).cls c = v := tget_tset_self _ v _ c
theorem Mach.cls_setCls_ne (m : Mach) (v : Cls) {c j : Nat} (h : j ≠ c) : (m.setCls c v).cls j = m.cls j := tget_tset_ne _ v _ h
@[simp] theorem Mach.slq_setSlq_self (m : Mach) (k : Nat) (v : Slq) : (m.setSlq k v).slq k = v := tget_tset_self _ v _ k
theorem Mach.slq_setSlq_ne (m : Mach) (v : Slq) {k j : Nat} (h : j ≠ k) : (m.setSlq k v).slq j = m.slq j := tget_tset_ne _ v _ h
@[simp] theorem Mach.ledger_setLedger_self (m : Mach) (k : Nat) (v : Ledger) : (m.setLedger k v).ledger k = v := tget_tset_self _ v _ k
theorem Mach.ledger_setLedger_ne (m : Mach) (v : Ledger) {k j : Nat} (h : j ≠ k) : (m.setLedger k v).ledger j = m.ledger j := tget_tset_ne _ v _ h
@[simp] theorem Mach.qp_setQp_self (m : Mach) (q : Nat) (v : Qp) : (m.setQp q v).qp q = v := tget_tset_self _ v _ q
theorem Mach.qp_setQp_ne (m : Mach) (v : Qp) {q j : Nat} (h : j ≠ q) : (m.setQp q v).qp j = m.qp j := tget_tset_ne _ v _ h
@[simp] theorem Mach.slice_setSlice_self (m : Mach) (k : Nat) (v : Slice) : (m.setSlice k v).slice k = v := tget_tset_self _ v _ k
theorem Mach.slice_setSlice_ne (m : Mach) (v : Slice) {k j : Nat} (h : j ≠ k) : (m.setSlice k v).slice j = m.slice j := tget_tset_ne _ v _ h
@[simp] theorem Mach.engine_setEngine_self (m : Mach) (p : Nat) (v : Eng) : (m.setEngine p v).engine p = v := tget_tset_self _ v _ p
theorem Mach.engine_setEngine_ne (m : Mach) (v : Eng) {p j : Nat} (h : j ≠ p) : (m.setEngine p v).engine j = m.engine j := tget_tset_ne _ v _ h
@[simp] theorem Mach.die_setDie_self (m : Mach) (d : Nat) (v : Die) : (m.setDie d v).die d = v := tget_tset_self _ v _ d
theorem Mach.die_setDie_ne (m : Mach) (v : Die) {d j : Nat} (h : j ≠ d) : (m.setDie d v).die j = m.die j := tget_tset_ne _ v _ h
@[simp] theorem Mach.chan_setChan_self (m : Mach) (n : Nat) (v : Chan) : (m.setChan n v).chan n = v := tget_tset_self _ v _ n
theorem Mach.chan_setChan_ne (m : Mach) (v : Chan) {n j : Nat} (h : j ≠ n) : (m.setChan n v).chan j = m.chan j := tget_tset_ne _ v _ h
@[simp] theorem Mach.rank_setRank_self (m : Mach) (q : Nat) (v : Rank) : (m.setRank q v).rank q = v := tget_tset_self _ v _ q
theorem Mach.rank_setRank_ne (m : Mach) (v : Rank) {q j : Nat} (h : j ≠ q) : (m.setRank q v).rank j = m.rank j := tget_tset_ne _ v _ h
@[simp] theorem Mach.key_setKey_self (m : Mach) (k : Nat) (v : Key) : (m.setKey k v).key k = v := tget_tset_self _ v _ k
theorem Mach.key_setKey_ne (m : Mach) (v : Key) {k j : Nat} (h : j ≠ k) : (m.setKey k v).key j = m.key j := tget_tset_ne _ v _ h
@[simp] theorem Mach.dctx_setDctx_self (m : Mach) (n : Nat) (v : Dctx) : (m.setDctx n v).dctx n = v := tget_tset_self _ v _ n
theorem Mach.dctx_setDctx_ne (m : Mach) (v : Dctx) {n j : Nat} (h : j ≠ n) : (m.setDctx n v).dctx j = m.dctx j := tget_tset_ne _ v _ h
@[simp] theorem Mach.lane_setLane_self (m : Mach) (n : Nat) (v : Lane) : (m.setLane n v).lane n = v := tget_tset_self _ v _ n
theorem Mach.lane_setLane_ne (m : Mach) (v : Lane) {n j : Nat} (h : j ≠ n) : (m.setLane n v).lane j = m.lane j := tget_tset_ne _ v _ h
@[simp] theorem Mach.cmd?_setCmd_self (m : Mach) (t : Nat) (v : Cmd) : (m.setCmd t v).cmd? t = some v := tget?_tset_self _ t v

@[simp] theorem Mach.core_setThr (m : Mach) (k c : Nat) (t : Thr) : (m.setThr k t).core c = m.core c := rfl
@[simp] theorem Mach.thr_setCore (m : Mach) (k c : Nat) (v : Core) : (m.setCore c v).thr k = m.thr k := rfl
@[simp] theorem Mach.evt_setThr (m : Mach) (k e : Nat) (t : Thr) : (m.setThr k t).evt e = m.evt e := rfl
@[simp] theorem Mach.thr_setEvt (m : Mach) (k e : Nat) (v : Evt) : (m.setEvt e v).thr k = m.thr k := rfl
@[simp] theorem Mach.setThr_setThr (m : Mach) (k : Nat) (t u : Thr) : (m.setThr k t).setThr k u = m.setThr k u := by
  simp [Mach.setThr]
@[simp] theorem Mach.modThr_modThr (m : Mach) (k : Nat) (f g : Thr → Thr) :
    (m.modThr k f).modThr k g = m.modThr k fun t => g (f t) := by
  simp [Mach.modThr]
@[simp] theorem Mach.thr_modThr_self (m : Mach) (k : Nat) (f : Thr → Thr) : (m.modThr k f).thr k = f (m.thr k) := by
  simp [Mach.modThr]
theorem Mach.thr_modThr_ne (m : Mach) (f : Thr → Thr) {k j : Nat} (h : j ≠ k) : (m.modThr k f).thr j = m.thr j :=
  Mach.thr_setThr_ne m _ h
@[simp] theorem Mach.core_modThr (m : Mach) (k c : Nat) (f : Thr → Thr) : (m.modThr k f).core c = m.core c := rfl
@[simp] theorem Mach.modThr_mem (m : Mach) (k : Nat) (f : Thr → Thr) : (m.modThr k f).mem = m.mem := rfl

end Sys2Proof.Machine
end

