-- ==== Sys2Proof/Laws/Insn.lean ====
section
/-! SUPPORT. Everything that the shared operations of a command can do: an effect, a register access, an instruction from its fetch to
its retirement, an exception and the return from one. -/

namespace Sys2Proof.Machine

/-! ## Effects and register accesses -/

@[simp] theorem State.act_next (s : State) (f : Mach → Mach) : s.act f = .next { s with m := f s.m } := rfl

theorem Mach.fabric_resting {m : Mach} (f : Mach → Mach) (h : m.resting = true) : m.fabric f = m := by simp [Mach.fabric, h]
theorem Mach.fabric_awake {m : Mach} (f : Mach → Mach) (h : m.resting = false) : m.fabric f = f m := by simp [Mach.fabric, h]

theorem State.access_resting {s : State} (f : Mach → Mach × RegOut) (h : s.m.resting = true) : s.access f = .next s := by
  simp [State.access, Mach.fabric, h]
theorem State.access_awake {s : State} (f : Mach → Mach × RegOut) (h : s.m.resting = false) :
    s.access f = .next { s with m := (f s.m).1.answer (f s.m).2.answer } := by
  simp [State.access, Mach.fabric, h]

theorem Mach.writeReg_denied (m : Mach) (w : Who) (a : Nat) (v rsv : W64) (ok : Bool) (f : Mach → Mach) :
    m.writeReg w a v rsv false ok f = (m, .denied 2) := rfl
theorem Mach.writeReg_refused (m : Mach) (w : Who) (a : Nat) (v rsv : W64) (f : Mach → Mach) :
    m.writeReg w a v rsv true false f = (m.rsvd w a true, .done) := rfl
theorem Mach.writeReg_done (m : Mach) (w : Who) (a : Nat) (v rsv : W64) (f : Mach → Mach) (h : v &&& rsv = 0) :
    m.writeReg w a v rsv true true f = (f m, .done) := by simp [Mach.writeReg, h]
theorem Mach.writeReg_reserved (m : Mach) (w : Who) (a : Nat) (v rsv : W64) (f : Mach → Mach) (h : v &&& rsv ≠ 0) :
    m.writeReg w a v rsv true true f = ((f m).rsvd w a false, .done) := by
  show (if v &&& rsv = 0 then f m else (f m).rsvd w a false, RegOut.done) = _
  rw [if_neg h]

/-! ## An instruction -/

section
variable {m m1 : Mach} {c k : Nat} {gd : BitVec 4} {i : Instr} {body : Mach → Nat → Res}

theorem Mach.insn_idle (h : m.runner c = none) : m.insn c gd i body = m := by simp [Mach.insn, h]

theorem Mach.insn_fetchFault {x d : Nat} {xa : W64} (h : m.runner c = some k) (hf : m.fetch c k = (m1, .fault x d xa)) :
    m.insn c gd i body = m1.exception k 0 x d xa := by simp [Mach.insn, h, hf]

theorem Mach.insn_fetchWait (h : m.runner c = some k) (hf : m.fetch c k = (m1, .wait)) : m.insn c gd i body = m1 := by
  simp [Mach.insn, h, hf]

theorem Mach.insn_break {b : Nat} (h : m.runner c = some k) (hf : m.fetch c k = (m1, .ok ())) (hb : m1.breakpoint k = some b) :
    m.insn c gd i body = m1.exception k 0 9 b (pcVal (m1.thr k).pc) := by simp [Mach.insn, h, hf, hb]

theorem Mach.insn_skip (h : m.runner c = some k) (hf : m.fetch c k = (m1, .ok ())) (hb : m1.breakpoint k = none)
    (hg : (m1.thr k).guard gd = false) : m.insn c gd i body = m1.modThr k fun t => t.retire.advance := by
  simp [Mach.insn, h, hf, hb, hg, Res.close]

theorem Mach.insn_illegal (h : m.runner c = some k) (hf : m.fetch c k = (m1, .ok ())) (hb : m1.breakpoint k = none)
    (hg : (m1.thr k).guard gd = true) (hw : WellFormed i = false) :
    m.insn c gd i body = m1.exception k ((encode i).getD 0) 1 0 0 := by simp [Mach.insn, h, hf, hb, hg, hw, Res.close]

theorem Mach.insn_body (h : m.runner c = some k) (hf : m.fetch c k = (m1, .ok ())) (hb : m1.breakpoint k = none)
    (hg : (m1.thr k).guard gd = true) (hw : WellFormed i = true) :
    m.insn c gd i body = (body m1 k).close k ((encode i).getD 0) := by simp [Mach.insn, h, hf, hb, hg, hw]

end

/-! ## Retiring, exceptions and their return -/

@[simp] theorem Thr.advance_pc (t : Thr) : t.advance.pc = t.pc + 1 := rfl
@[simp] theorem Thr.advance_g (t : Thr) : t.advance.g = t.g := rfl

theorem Mach.exception_entry {m : Mach} {k : Nat} (word : W32) (x d : Nat) (xa : W64)
    (he : (m.thr k).exc = false) (hh : (m.thr k).handler ≠ 0) :
    (m.exception k word x d xa).thr k =
      { m.thr k with
        xpc := (m.thr k).pc, xc := (word.setWidth 64 <<< 32) ||| at_ 8 d ||| at_ 0 x, xa := xa, savProds := (m.thr k).prods,
        savLoad := (m.thr k).pload, prods := [], pload := none, exc := true, hold := .none, pc := (m.thr k).handler } := by
  unfold Mach.exception
  rw [if_neg (by simpa [he] using hh)]
  exact Mach.thr_setThr_self ..

theorem Mach.exception_stop {m : Mach} {k : Nat} (word : W32) (x d : Nat) (xa : W64)
    (h : (m.thr k).exc = true ∨ (m.thr k).handler = 0) : m.exception k word x d xa = m.stopThread k word x d := by
  rcases h with h | h <;> simp [Mach.exception, h]

theorem Thr.resumed_exception (t : Thr) (xc xa : W64) (h : t.exc = false) (hs : t.savProds = []) (hl : t.savLoad = none)
    (hh : t.hold = .none) :
    ({ t with xpc := t.pc, xc := xc, xa := xa, savProds := t.prods, savLoad := t.pload, prods := [], pload := none, exc := true,
              hold := .none, pc := t.handler } : Thr).resumed = { t with xpc := t.pc, xc := xc, xa := xa } := by
  cases t; simp_all [Thr.resumed]

end Sys2Proof.Machine
end

