-- ==== Sys2Proof/Laws/Memory.lean ====
section
/-! SUPPORT. Every operation on the stored bytes keeps their canonical form, and what a read gives after a write (R97, R523). -/

namespace Sys2Proof.Machine

@[simp] theorem Mach.byte_setThr (m : Mach) (k a : Nat) (t : Thr) : (m.setThr k t).byte a = m.byte a := rfl

theorem Mach.putRaw_wf {m : Mach} (a : Nat) (d : Byte) (c : BitVec 5) (h : Memory.wf m.mem = true) :
    Memory.wf (m.putRaw a d c).mem = true := memSet_wf h

theorem Mach.putByte_wf {m : Mach} (a : Nat) (d : Byte) (h : Memory.wf m.mem = true) : Memory.wf (m.putByte a d).mem = true :=
  Mach.putRaw_wf a d _ h

theorem Mach.putBytes_wf (l : List Byte) : ∀ {m : Mach} (a : Nat), Memory.wf m.mem = true → Memory.wf (m.putBytes a l).mem = true := by
  induction l with
  | nil => intro m a h; exact h
  | cons b t ih => intro m a h; exact ih (a + 1) (Mach.putByte_wf a b h)

theorem cellsAt_bounds (l : List Byte) : ∀ (a : Nat), ∀ e ∈ cellsAt a l, a ≤ e.1 ∧ e.1 < a + l.length := by
  induction l with
  | nil => intro a e h; simp [cellsAt] at h
  | cons b t ih =>
    intro a e h
    simp only [cellsAt] at h
    split at h
    · have := ih (a + 1) e h; simp only [List.length_cons]; omega
    · rcases List.mem_cons.mp h with rfl | h
      · simp only [List.length_cons]; omega
      · have := ih (a + 1) e h; simp only [List.length_cons]; omega

theorem cellsAt_wf (l : List Byte) : ∀ (a : Nat), memWfFrom memDef a (cellsAt a l) = true := by
  induction l with
  | nil => intro a; rfl
  | cons b t ih =>
    intro a
    simp only [cellsAt]
    split
    · exact memWfFrom_mono (Nat.le_succ a) (ih (a + 1))
    · simp only [memWfFrom, Bool.and_eq_true, decide_eq_true_eq]
      exact ⟨⟨Nat.le_refl a, ‹_›⟩, ih (a + 1)⟩

theorem Mach.putRun_wf {m : Mach} (a : Nat) (l : List Byte) (h : Memory.wf m.mem = true) : Memory.wf (m.putRun a l).mem = true := by
  show memWfFrom memDef 0 (spliceCells m.mem.cells a (a + l.length) (cellsAt a l)) = true
  unfold spliceCells
  rw [List.append_assoc]
  refine memWfFrom_append (mid := a) (Nat.zero_le a) (memFilter_wfFrom _ h) ?_ ?_
  · intro e he; simpa using (List.mem_filter.mp he).2
  · refine memWfFrom_append (mid := a + l.length) (Nat.le_add_right ..) (cellsAt_wf l a) (fun e he => (cellsAt_bounds l a e he).2) ?_
    exact memAbove_wfFrom h

theorem Mach.zero_wf {m : Mach} (lo hi : Nat) (h : Memory.wf m.mem = true) : Memory.wf (m.zero lo hi).mem = true :=
  memClear_wf lo hi h

/-- A byte stored is the byte read (R523). -/
theorem Mach.byte_putRaw_self {m : Mach} {a : Nat} (d : Byte) (c : BitVec 5) (h : Memory.wf m.mem = true) (ha : 0x40000 ≤ a) :
    (m.putRaw a d c).byte a = d := by
  show (if a < 0x40000 then Config.romByte a else memGet memDef (memSet memDef m.mem.cells a d) a) = d
  rw [if_neg (by omega)]; exact memGet_memSet_self h

/-- Storing a byte leaves every other byte alone. -/
theorem Mach.byte_putRaw_ne {m : Mach} {a b : Nat} (d : Byte) (c : BitVec 5) (h : b ≠ a) : (m.putRaw a d c).byte b = m.byte b := by
  show (if b < 0x40000 then _ else memGet memDef (memSet memDef m.mem.cells a d) b) = (if b < 0x40000 then _ else _)
  rw [memGet_memSet_ne h]

end Sys2Proof.Machine
end

