-- ==== Sys2Proof/Laws/PerInstr.lean ====
section
/-! SUPPORT. Laws of the instructions as syntax, one lemma for each constructor. The family Guarded: every instruction of a core has a word,
and bits [31:28] of it hold its guard (R94, R126). -/

open Sys2Proof.Machine

namespace Sys2Proof.Laws

theorem high_append {n m : Nat} (a : BitVec n) (b : BitVec m) (s : Nat) (h : m ≤ s) :
    (a ++ b).extractLsb' s 4 = a.extractLsb' (s - m) 4 := by
  apply BitVec.eq_of_getLsbD_eq
  intro i hi
  rw [BitVec.getLsbD_extractLsb', BitVec.getLsbD_extractLsb', BitVec.getLsbD_append, if_neg (by omega)]
  congr 2
  omega

theorem high_all (g : BitVec 4) : g.extractLsb' 0 4 = g := by
  apply BitVec.eq_of_getLsbD_eq
  intro i hi
  simp [hi]

theorem wGuard_wordO (g : BitVec 4) (m : BitVec 6) (d a b : BitVec 5) (f : BitVec 7) : wGuard (wordO g m d a b f) = g := by
  unfold wGuard wordO
  rw [high_append _ _ _ (by decide), high_append _ _ _ (by decide), high_append _ _ _ (by decide), high_append _ _ _ (by decide), high_append _ _ _ (by decide)]
  exact high_all g

theorem wGuard_wordI (g : BitVec 4) (m : BitVec 6) (d a : BitVec 5) (i : BitVec 12) : wGuard (wordI g m d a i) = g := by
  unfold wGuard wordI
  rw [high_append _ _ _ (by decide), high_append _ _ _ (by decide), high_append _ _ _ (by decide), high_append _ _ _ (by decide)]
  exact high_all g

theorem wGuard_wordH (g : BitVec 4) (d a : BitVec 5) (k : BitVec 2) (n : BitVec 6) : wGuard (wordH g d a k n) = g := by
  unfold wGuard wordH
  rw [high_append _ _ _ (by decide), high_append _ _ _ (by decide), high_append _ _ _ (by decide), high_append _ _ _ (by decide), high_append _ _ _ (by decide), high_append _ _ _ (by decide)]
  exact high_all g

theorem wGuard_wordW (g : BitVec 4) (h : BitVec 2) (d : BitVec 5) (k : Bool) (i : BitVec 16) : wGuard (wordW g h d k i) = g := by
  unfold wGuard wordW
  rw [high_append _ _ _ (by decide), high_append _ _ _ (by decide), high_append _ _ _ (by decide), high_append _ _ _ (by decide), high_append _ _ _ (by decide)]
  exact high_all g

theorem wGuard_wordC (g : BitVec 4) (p : BitVec 3) (a b : BitVec 5) (k : BitVec 2) (n : BitVec 4) : wGuard (wordC g p a b k n) = g := by
  unfold wGuard wordC
  rw [high_append _ _ _ (by decide), high_append _ _ _ (by decide), high_append _ _ _ (by decide), high_append _ _ _ (by decide), high_append _ _ _ (by decide), high_append _ _ _ (by decide), high_append _ _ _ (by decide), high_append _ _ _ (by decide)]
  exact high_all g

theorem wGuard_wordCI (g : BitVec 4) (p n : BitVec 3) (a : BitVec 5) (i : BitVec 11) : wGuard (wordCI g p n a i) = g := by
  unfold wGuard wordCI
  rw [high_append _ _ _ (by decide), high_append _ _ _ (by decide), high_append _ _ _ (by decide), high_append _ _ _ (by decide), high_append _ _ _ (by decide)]
  exact high_all g

theorem wGuard_wordP (g : BitVec 4) (p a b : BitVec 3) (o : BitVec 2) : wGuard (wordP g p a b o) = g := by
  unfold wGuard wordP
  rw [high_append _ _ _ (by decide), high_append _ _ _ (by decide), high_append _ _ _ (by decide), high_append _ _ _ (by decide), high_append _ _ _ (by decide), high_append _ _ _ (by decide)]
  exact high_all g

theorem wGuard_wordB (g : BitVec 4) (m : BitVec 6) (o : BitVec 22) : wGuard (wordB g m o) = g := by
  unfold wGuard wordB
  rw [high_append _ _ _ (by decide), high_append _ _ _ (by decide)]
  exact high_all g

theorem wGuard_wordK (g : BitVec 4) (p k : BitVec 3) (e y : BitVec 2) (n : Bool) : wGuard (wordK g p k e y n) = g := by
  unfold wGuard wordK
  rw [high_append _ _ _ (by decide), high_append _ _ _ (by decide), high_append _ _ _ (by decide), high_append _ _ _ (by decide), high_append _ _ _ (by decide), high_append _ _ _ (by decide), high_append _ _ _ (by decide)]
  exact high_all g

theorem wGuard_wordT (g : BitVec 4) (p : BitVec 3) (z : BitVec 2) (a b : BitVec 5) : wGuard (wordT g p z a b) = g := by
  unfold wGuard wordT
  rw [high_append _ _ _ (by decide), high_append _ _ _ (by decide), high_append _ _ _ (by decide), high_append _ _ _ (by decide), high_append _ _ _ (by decide), high_append _ _ _ (by decide)]
  exact high_all g

theorem wGuard_wordA (g : BitVec 4) (d : BitVec 5) (p : BitVec 3) : wGuard (wordA g d p) = g := by
  unfold wGuard wordA
  rw [high_append _ _ _ (by decide), high_append _ _ _ (by decide), high_append _ _ _ (by decide), high_append _ _ _ (by decide)]
  exact high_all g

theorem wGuard_wordCrc (g : BitVec 4) (d a b : BitVec 5) (p z : BitVec 2) : wGuard (wordCrc g d a b p z) = g := by
  unfold wGuard wordCrc
  rw [high_append _ _ _ (by decide), high_append _ _ _ (by decide), high_append _ _ _ (by decide), high_append _ _ _ (by decide), high_append _ _ _ (by decide), high_append _ _ _ (by decide), high_append _ _ _ (by decide)]
  exact high_all g

theorem wGuard_wordJt (g : BitVec 4) (d a : BitVec 5) (p : BitVec 3) : wGuard (wordJt g d a p) = g := by
  unfold wGuard wordJt
  rw [high_append _ _ _ (by decide), high_append _ _ _ (by decide), high_append _ _ _ (by decide), high_append _ _ _ (by decide), high_append _ _ _ (by decide), high_append _ _ _ (by decide)]
  exact high_all g

/-- What the family says of an instruction. -/
def Guarded.Statement (i : Instr) : Prop := ∀ c gd, i.onCore = some (c, gd) → ∃ w, encode i = some w ∧ wGuard w = gd

theorem Guarded.of_word {i : Instr} {c : Fin 72} {gd : BitVec 4} {w : W32} (ho : i.onCore = some (c, gd)) (he : encode i = some w)
    (hg : wGuard w = gd) : Guarded.Statement i := by
  intro c2 g2 h
  rw [ho] at h
  cases h
  exact ⟨w, he, hg⟩

theorem Guarded.of_none {i : Instr} (ho : i.onCore = none) : Guarded.Statement i := by
  intro c g h
  rw [ho] at h
  cases h

theorem Guarded.add (c : Fin 72) (gd : BitVec 4) (rd ra rb : BitVec 5) : Guarded.Statement (.add c gd rd ra rb) := of_word rfl rfl (wGuard_wordO ..)
theorem Guarded.sub (c : Fin 72) (gd : BitVec 4) (rd ra rb : BitVec 5) : Guarded.Statement (.sub c gd rd ra rb) := of_word rfl rfl (wGuard_wordO ..)
theorem Guarded.and (c : Fin 72) (gd : BitVec 4) (rd ra rb : BitVec 5) : Guarded.Statement (.and c gd rd ra rb) := of_word rfl rfl (wGuard_wordO ..)
theorem Guarded.or (c : Fin 72) (gd : BitVec 4) (rd ra rb : BitVec 5) : Guarded.Statement (.or c gd rd ra rb) := of_word rfl rfl (wGuard_wordO ..)
theorem Guarded.xor (c : Fin 72) (gd : BitVec 4) (rd ra rb : BitVec 5) : Guarded.Statement (.xor c gd rd ra rb) := of_word rfl rfl (wGuard_wordO ..)
theorem Guarded.andn (c : Fin 72) (gd : BitVec 4) (rd ra rb : BitVec 5) : Guarded.Statement (.andn c gd rd ra rb) := of_word rfl rfl (wGuard_wordO ..)
theorem Guarded.shl (c : Fin 72) (gd : BitVec 4) (rd ra rb : BitVec 5) : Guarded.Statement (.shl c gd rd ra rb) := of_word rfl rfl (wGuard_wordO ..)
theorem Guarded.shr (c : Fin 72) (gd : BitVec 4) (rd ra rb : BitVec 5) : Guarded.Statement (.shr c gd rd ra rb) := of_word rfl rfl (wGuard_wordO ..)
theorem Guarded.sar (c : Fin 72) (gd : BitVec 4) (rd ra rb : BitVec 5) : Guarded.Statement (.sar c gd rd ra rb) := of_word rfl rfl (wGuard_wordO ..)
theorem Guarded.ror (c : Fin 72) (gd : BitVec 4) (rd ra rb : BitVec 5) : Guarded.Statement (.ror c gd rd ra rb) := of_word rfl rfl (wGuard_wordO ..)
theorem Guarded.min (c : Fin 72) (gd : BitVec 4) (rd ra rb : BitVec 5) : Guarded.Statement (.min c gd rd ra rb) := of_word rfl rfl (wGuard_wordO ..)
theorem Guarded.max (c : Fin 72) (gd : BitVec 4) (rd ra rb : BitVec 5) : Guarded.Statement (.max c gd rd ra rb) := of_word rfl rfl (wGuard_wordO ..)
theorem Guarded.minu (c : Fin 72) (gd : BitVec 4) (rd ra rb : BitVec 5) : Guarded.Statement (.minu c gd rd ra rb) := of_word rfl rfl (wGuard_wordO ..)
theorem Guarded.maxu (c : Fin 72) (gd : BitVec 4) (rd ra rb : BitVec 5) : Guarded.Statement (.maxu c gd rd ra rb) := of_word rfl rfl (wGuard_wordO ..)
theorem Guarded.sextB (c : Fin 72) (gd : BitVec 4) (rd ra : BitVec 5) : Guarded.Statement (.sextB c gd rd ra) := of_word rfl rfl (wGuard_wordO ..)
theorem Guarded.sextH (c : Fin 72) (gd : BitVec 4) (rd ra : BitVec 5) : Guarded.Statement (.sextH c gd rd ra) := of_word rfl rfl (wGuard_wordO ..)
theorem Guarded.sextW (c : Fin 72) (gd : BitVec 4) (rd ra : BitVec 5) : Guarded.Statement (.sextW c gd rd ra) := of_word rfl rfl (wGuard_wordO ..)
theorem Guarded.zextB (c : Fin 72) (gd : BitVec 4) (rd ra : BitVec 5) : Guarded.Statement (.zextB c gd rd ra) := of_word rfl rfl (wGuard_wordO ..)
theorem Guarded.zextH (c : Fin 72) (gd : BitVec 4) (rd ra : BitVec 5) : Guarded.Statement (.zextH c gd rd ra) := of_word rfl rfl (wGuard_wordO ..)
theorem Guarded.zextW (c : Fin 72) (gd : BitVec 4) (rd ra : BitVec 5) : Guarded.Statement (.zextW c gd rd ra) := of_word rfl rfl (wGuard_wordO ..)
theorem Guarded.addi (c : Fin 72) (gd : BitVec 4) (rd ra : BitVec 5) (imm : BitVec 12) : Guarded.Statement (.addi c gd rd ra imm) := of_word rfl rfl (wGuard_wordI ..)
theorem Guarded.andi (c : Fin 72) (gd : BitVec 4) (rd ra : BitVec 5) (imm : BitVec 12) : Guarded.Statement (.andi c gd rd ra imm) := of_word rfl rfl (wGuard_wordI ..)
theorem Guarded.ori (c : Fin 72) (gd : BitVec 4) (rd ra : BitVec 5) (imm : BitVec 12) : Guarded.Statement (.ori c gd rd ra imm) := of_word rfl rfl (wGuard_wordI ..)
theorem Guarded.xori (c : Fin 72) (gd : BitVec 4) (rd ra : BitVec 5) (imm : BitVec 12) : Guarded.Statement (.xori c gd rd ra imm) := of_word rfl rfl (wGuard_wordI ..)
theorem Guarded.shifti (c : Fin 72) (gd : BitVec 4) (rd ra : BitVec 5) (kind : BitVec 2) (amount : BitVec 6) : Guarded.Statement (.shifti c gd rd ra kind amount) := of_word rfl rfl (wGuard_wordH ..)
theorem Guarded.movi (c : Fin 72) (gd : BitVec 4) (h : BitVec 2) (rd : BitVec 5) (k : Bool) (imm : BitVec 16) : Guarded.Statement (.movi c gd h rd k imm) := of_word rfl rfl (wGuard_wordW ..)
theorem Guarded.cmp (c : Fin 72) (gd : BitVec 4) (pd : BitVec 3) (ra rb : BitVec 5) (comb : BitVec 2) (cond : BitVec 4) : Guarded.Statement (.cmp c gd pd ra rb comb cond) := of_word rfl rfl (wGuard_wordC ..)
theorem Guarded.cmpi (c : Fin 72) (gd : BitVec 4) (pd cond : BitVec 3) (ra : BitVec 5) (imm : BitVec 11) : Guarded.Statement (.cmpi c gd pd cond ra imm) := of_word rfl rfl (wGuard_wordCI ..)
theorem Guarded.pred (c : Fin 72) (gd : BitVec 4) (pd pa pb : BitVec 3) (op : BitVec 2) : Guarded.Statement (.pred c gd pd pa pb op) := of_word rfl rfl (wGuard_wordP ..)
theorem Guarded.ldB (c : Fin 72) (gd : BitVec 4) (rd ra : BitVec 5) (imm : BitVec 12) : Guarded.Statement (.ldB c gd rd ra imm) := of_word rfl rfl (wGuard_wordI ..)
theorem Guarded.ldH (c : Fin 72) (gd : BitVec 4) (rd ra : BitVec 5) (imm : BitVec 12) : Guarded.Statement (.ldH c gd rd ra imm) := of_word rfl rfl (wGuard_wordI ..)
theorem Guarded.ldW (c : Fin 72) (gd : BitVec 4) (rd ra : BitVec 5) (imm : BitVec 12) : Guarded.Statement (.ldW c gd rd ra imm) := of_word rfl rfl (wGuard_wordI ..)
theorem Guarded.ldD (c : Fin 72) (gd : BitVec 4) (rd ra : BitVec 5) (imm : BitVec 12) : Guarded.Statement (.ldD c gd rd ra imm) := of_word rfl rfl (wGuard_wordI ..)
theorem Guarded.ldBs (c : Fin 72) (gd : BitVec 4) (rd ra : BitVec 5) (imm : BitVec 12) : Guarded.Statement (.ldBs c gd rd ra imm) := of_word rfl rfl (wGuard_wordI ..)
theorem Guarded.ldHs (c : Fin 72) (gd : BitVec 4) (rd ra : BitVec 5) (imm : BitVec 12) : Guarded.Statement (.ldHs c gd rd ra imm) := of_word rfl rfl (wGuard_wordI ..)
theorem Guarded.ldWs (c : Fin 72) (gd : BitVec 4) (rd ra : BitVec 5) (imm : BitVec 12) : Guarded.Statement (.ldWs c gd rd ra imm) := of_word rfl rfl (wGuard_wordI ..)
theorem Guarded.stB (c : Fin 72) (gd : BitVec 4) (rd ra : BitVec 5) (imm : BitVec 12) : Guarded.Statement (.stB c gd rd ra imm) := of_word rfl rfl (wGuard_wordI ..)
theorem Guarded.stH (c : Fin 72) (gd : BitVec 4) (rd ra : BitVec 5) (imm : BitVec 12) : Guarded.Statement (.stH c gd rd ra imm) := of_word rfl rfl (wGuard_wordI ..)
theorem Guarded.stW (c : Fin 72) (gd : BitVec 4) (rd ra : BitVec 5) (imm : BitVec 12) : Guarded.Statement (.stW c gd rd ra imm) := of_word rfl rfl (wGuard_wordI ..)
theorem Guarded.stD (c : Fin 72) (gd : BitVec 4) (rd ra : BitVec 5) (imm : BitVec 12) : Guarded.Statement (.stD c gd rd ra imm) := of_word rfl rfl (wGuard_wordI ..)
theorem Guarded.br (c : Fin 72) (gd : BitVec 4) (off : BitVec 22) : Guarded.Statement (.br c gd off) := of_word rfl rfl (wGuard_wordB ..)
theorem Guarded.bl (c : Fin 72) (gd : BitVec 4) (off : BitVec 22) : Guarded.Statement (.bl c gd off) := of_word rfl rfl (wGuard_wordB ..)
theorem Guarded.jr (c : Fin 72) (gd : BitVec 4) (ra : BitVec 5) : Guarded.Statement (.jr c gd ra) := of_word rfl rfl (wGuard_wordO ..)
theorem Guarded.jlr (c : Fin 72) (gd : BitVec 4) (rd ra : BitVec 5) : Guarded.Statement (.jlr c gd rd ra) := of_word rfl rfl (wGuard_wordO ..)
theorem Guarded.resume (c : Fin 72) (gd : BitVec 4) : Guarded.Statement (.resume c gd) := of_word rfl rfl (wGuard_wordO ..)
theorem Guarded.mul (c : Fin 72) (gd : BitVec 4) (ra rb : BitVec 5) : Guarded.Statement (.mul c gd ra rb) := of_word rfl rfl (wGuard_wordO ..)
theorem Guarded.mulh (c : Fin 72) (gd : BitVec 4) (ra rb : BitVec 5) : Guarded.Statement (.mulh c gd ra rb) := of_word rfl rfl (wGuard_wordO ..)
theorem Guarded.divStep (c : Fin 72) (gd : BitVec 4) (ra : BitVec 5) : Guarded.Statement (.divStep c gd ra) := of_word rfl rfl (wGuard_wordO ..)
theorem Guarded.par (c : Fin 72) (gd : BitVec 4) (rd ra : BitVec 5) : Guarded.Statement (.par c gd rd ra) := of_word rfl rfl (wGuard_wordO ..)
theorem Guarded.brev (c : Fin 72) (gd : BitVec 4) (rd ra : BitVec 5) : Guarded.Statement (.brev c gd rd ra) := of_word rfl rfl (wGuard_wordO ..)
theorem Guarded.brevB (c : Fin 72) (gd : BitVec 4) (rd ra : BitVec 5) : Guarded.Statement (.brevB c gd rd ra) := of_word rfl rfl (wGuard_wordO ..)
theorem Guarded.bswap (c : Fin 72) (gd : BitVec 4) (rd ra : BitVec 5) : Guarded.Statement (.bswap c gd rd ra) := of_word rfl rfl (wGuard_wordO ..)
theorem Guarded.clz (c : Fin 72) (gd : BitVec 4) (rd ra : BitVec 5) : Guarded.Statement (.clz c gd rd ra) := of_word rfl rfl (wGuard_wordO ..)
theorem Guarded.ctz (c : Fin 72) (gd : BitVec 4) (rd ra : BitVec 5) : Guarded.Statement (.ctz c gd rd ra) := of_word rfl rfl (wGuard_wordO ..)
theorem Guarded.popc (c : Fin 72) (gd : BitVec 4) (rd ra : BitVec 5) : Guarded.Statement (.popc c gd rd ra) := of_word rfl rfl (wGuard_wordO ..)
theorem Guarded.crcStep (c : Fin 72) (gd : BitVec 4) (rd ra rb : BitVec 5) (pp ss : BitVec 2) : Guarded.Statement (.crcStep c gd rd ra rb pp ss) := of_word rfl rfl (wGuard_wordCrc ..)
theorem Guarded.movBlk (c : Fin 72) (gd : BitVec 4) (esz : BitVec 2) : Guarded.Statement (.movBlk c gd esz) := of_word rfl rfl (wGuard_wordK ..)
theorem Guarded.fillBlk (c : Fin 72) (gd : BitVec 4) (esz : BitVec 2) : Guarded.Statement (.fillBlk c gd esz) := of_word rfl rfl (wGuard_wordK ..)
theorem Guarded.cmpBlk (c : Fin 72) (gd : BitVec 4) (pd : BitVec 3) (esz : BitVec 2) : Guarded.Statement (.cmpBlk c gd pd esz) := of_word rfl rfl (wGuard_wordK ..)
theorem Guarded.scanBlk (c : Fin 72) (gd : BitVec 4) (pd : BitVec 3) (esz : BitVec 2) (ne : Bool) : Guarded.Statement (.scanBlk c gd pd esz ne) := of_word rfl rfl (wGuard_wordK ..)
theorem Guarded.crcBlk (c : Fin 72) (gd : BitVec 4) (poly : BitVec 2) : Guarded.Statement (.crcBlk c gd poly) := of_word rfl rfl (wGuard_wordK ..)
theorem Guarded.mfs (c : Fin 72) (gd : BitVec 4) (rd sr : BitVec 5) : Guarded.Statement (.mfs c gd rd sr) := of_word rfl rfl (wGuard_wordO ..)
theorem Guarded.mts (c : Fin 72) (gd : BitVec 4) (sr ra : BitVec 5) : Guarded.Statement (.mts c gd sr ra) := of_word rfl rfl (wGuard_wordO ..)
theorem Guarded.waitwork (c : Fin 72) (gd : BitVec 4) (rd : BitVec 5) : Guarded.Statement (.waitwork c gd rd) := of_word rfl rfl (wGuard_wordO ..)
theorem Guarded.yield (c : Fin 72) (gd : BitVec 4) : Guarded.Statement (.yield c gd) := of_word rfl rfl (wGuard_wordO ..)
theorem Guarded.post (c : Fin 72) (gd : BitVec 4) (ra : BitVec 5) : Guarded.Statement (.post c gd ra) := of_word rfl rfl (wGuard_wordO ..)
theorem Guarded.sleep (c : Fin 72) (gd : BitVec 4) (ra : BitVec 5) : Guarded.Statement (.sleep c gd ra) := of_word rfl rfl (wGuard_wordO ..)
theorem Guarded.fence (c : Fin 72) (gd : BitVec 4) : Guarded.Statement (.fence c gd) := of_word rfl rfl (wGuard_wordO ..)
theorem Guarded.cacheClnR (c : Fin 72) (gd : BitVec 4) (ra rb : BitVec 5) : Guarded.Statement (.cacheClnR c gd ra rb) := of_word rfl rfl (wGuard_wordO ..)
theorem Guarded.cacheInvR (c : Fin 72) (gd : BitVec 4) (ra rb : BitVec 5) : Guarded.Statement (.cacheInvR c gd ra rb) := of_word rfl rfl (wGuard_wordO ..)
theorem Guarded.jobSubmit (c : Fin 72) (gd : BitVec 4) (rd ra rb : BitVec 5) : Guarded.Statement (.jobSubmit c gd rd ra rb) := of_word rfl rfl (wGuard_wordO ..)
theorem Guarded.jobWait (c : Fin 72) (gd : BitVec 4) (rd ra : BitVec 5) : Guarded.Statement (.jobWait c gd rd ra) := of_word rfl rfl (wGuard_wordO ..)
theorem Guarded.jobTest (c : Fin 72) (gd : BitVec 4) (rd ra : BitVec 5) (pd : BitVec 3) : Guarded.Statement (.jobTest c gd rd ra pd) := of_word rfl rfl (wGuard_wordJt ..)
theorem Guarded.dgsOpen (c : Fin 72) (gd : BitVec 4) (rd ra : BitVec 5) : Guarded.Statement (.dgsOpen c gd rd ra) := of_word rfl rfl (wGuard_wordO ..)
theorem Guarded.dgsUpdate (c : Fin 72) (gd : BitVec 4) (rd ra rb : BitVec 5) : Guarded.Statement (.dgsUpdate c gd rd ra rb) := of_word rfl rfl (wGuard_wordO ..)
theorem Guarded.dgsFinish (c : Fin 72) (gd : BitVec 4) (rd ra rb : BitVec 5) : Guarded.Statement (.dgsFinish c gd rd ra rb) := of_word rfl rfl (wGuard_wordO ..)
theorem Guarded.dgsRelease (c : Fin 72) (gd : BitVec 4) (ra : BitVec 5) : Guarded.Statement (.dgsRelease c gd ra) := of_word rfl rfl (wGuard_wordO ..)
theorem Guarded.mregExtend (c : Fin 72) (gd : BitVec 4) (n ra : BitVec 5) : Guarded.Statement (.mregExtend c gd n ra) := of_word rfl rfl (wGuard_wordO ..)
theorem Guarded.cmpCt (c : Fin 72) (gd : BitVec 4) (pd : BitVec 3) (size : BitVec 2) (ra rb : BitVec 5) : Guarded.Statement (.cmpCt c gd pd size ra rb) := of_word rfl rfl (wGuard_wordT ..)
theorem Guarded.ledgerAudit (c : Fin 72) (gd : BitVec 4) (rd : BitVec 5) (pd : BitVec 3) : Guarded.Statement (.ledgerAudit c gd rd pd) := of_word rfl rfl (wGuard_wordA ..)
theorem Guarded.illegalInstruction (c : Fin 72) (word : BitVec 32) : Guarded.Statement (.illegalInstruction c word) := of_none rfl
theorem Guarded.insnmaxExceeded (c : Fin 72) : Guarded.Statement (.insnmaxExceeded c) := of_none rfl
theorem Guarded.grnAlloc (w : Who) (cls : Fin 8) : Guarded.Statement (.grnAlloc w cls) := of_none rfl
theorem Guarded.grnTryalloc (w : Who) (cls : Fin 8) : Guarded.Statement (.grnTryalloc w cls) := of_none rfl
theorem Guarded.heldAllocationGrant (n : Nat) : Guarded.Statement (.heldAllocationGrant n) := of_none rfl
theorem Guarded.grnFree (w : Who) (v : BitVec 64) : Guarded.Statement (.grnFree w v) := of_none rfl
theorem Guarded.grnGive (w : Who) (v : BitVec 64) : Guarded.Statement (.grnGive w v) := of_none rfl
theorem Guarded.bufferHandoffAccept (h : BitVec 14) : Guarded.Statement (.bufferHandoffAccept h) := of_none rfl
theorem Guarded.grnRecount (w : Who) (v : BitVec 64) : Guarded.Statement (.grnRecount w v) := of_none rfl
theorem Guarded.quarantineReserve (q : Fin 4) (ctx : Fin 16) : Guarded.Statement (.quarantineReserve q ctx) := of_none rfl
theorem Guarded.quarantineMove (q : Fin 4) (ctx : Fin 16) : Guarded.Statement (.quarantineMove q ctx) := of_none rfl
theorem Guarded.schTcbAlloc (w : Who) : Guarded.Statement (.schTcbAlloc w) := of_none rfl
theorem Guarded.schTcbAllocSlice (w : Who) (sl : Fin 256) : Guarded.Statement (.schTcbAllocSlice w sl) := of_none rfl
theorem Guarded.start (w : Who) (k : Fin 4096) : Guarded.Statement (.start w k) := of_none rfl
theorem Guarded.stop (w : Who) (k : Fin 4096) : Guarded.Statement (.stop w k) := of_none rfl
theorem Guarded.restart (w : Who) (k : Fin 4096) : Guarded.Statement (.restart w k) := of_none rfl
theorem Guarded.delete (w : Who) (k : Fin 4096) : Guarded.Statement (.delete w k) := of_none rfl
theorem Guarded.tcbPrioWrite (w : Who) (k : Fin 4096) (v : BitVec 64) : Guarded.Statement (.tcbPrioWrite w k v) := of_none rfl
theorem Guarded.tcbFieldWrite (w : Who) (k : Fin 4096) (r : Fin 16) (v : BitVec 64) : Guarded.Statement (.tcbFieldWrite w k r v) := of_none rfl
theorem Guarded.coreAskWork (c : Fin 72) : Guarded.Statement (.coreAskWork c) := of_none rfl
theorem Guarded.heldRaiseAccept (n : Nat) : Guarded.Statement (.heldRaiseAccept n) := of_none rfl
theorem Guarded.schEvtWrite (w : Who) (e : Fin 1024) (v : BitVec 64) : Guarded.Statement (.schEvtWrite w e v) := of_none rfl
theorem Guarded.schTmrWrite (w : Who) (k : Fin 16) (v : BitVec 64) : Guarded.Statement (.schTmrWrite w k v) := of_none rfl
theorem Guarded.timerExpire (k : Fin 16) : Guarded.Statement (.timerExpire k) := of_none rfl
theorem Guarded.sleepWake (k : Fin 4096) : Guarded.Statement (.sleepWake k) := of_none rfl
theorem Guarded.obsWindowWrite (w : Who) (isEnd : Bool) (v : BitVec 64) : Guarded.Statement (.obsWindowWrite w isEnd v) := of_none rfl
theorem Guarded.obsWindowClose : Guarded.Statement .obsWindowClose := of_none rfl
theorem Guarded.mbxPost (w : Who) (m : Fin 576) (v : BitVec 64) : Guarded.Statement (.mbxPost w m v) := of_none rfl
theorem Guarded.mbxTake (w : Who) (m : Fin 576) : Guarded.Statement (.mbxTake w m) := of_none rfl
theorem Guarded.mbxDbset (w : Who) (m : Fin 576) (v : BitVec 64) : Guarded.Statement (.mbxDbset w m v) := of_none rfl
theorem Guarded.mbxDbread (w : Who) (m : Fin 576) : Guarded.Statement (.mbxDbread w m) := of_none rfl
theorem Guarded.mbxDbmaskWrite (w : Who) (m : Fin 576) (v : BitVec 64) : Guarded.Statement (.mbxDbmaskWrite w m v) := of_none rfl
theorem Guarded.mbxBindWrite (w : Who) (m : Fin 576) (v : BitVec 64) : Guarded.Statement (.mbxBindWrite w m v) := of_none rfl
theorem Guarded.mbxTimeout (m : Fin 576) : Guarded.Statement (.mbxTimeout m) := of_none rfl
theorem Guarded.lockRead (w : Who) (n : Fin 256) : Guarded.Statement (.lockRead w n) := of_none rfl
theorem Guarded.lockWrite (w : Who) (n : Fin 256) (v : BitVec 64) : Guarded.Statement (.lockWrite w n v) := of_none rfl
theorem Guarded.mbxLockcfgWrite (w : Who) (n : Fin 256) (v : BitVec 64) : Guarded.Statement (.mbxLockcfgWrite w n v) := of_none rfl
theorem Guarded.lockForce (w : Who) (n : Fin 256) (v : BitVec 64) : Guarded.Statement (.lockForce w n v) := of_none rfl
theorem Guarded.resonatorLoss : Guarded.Statement .resonatorLoss := of_none rfl
theorem Guarded.pwrVcoreReqWrite (w : Who) (v : BitVec 64) : Guarded.Statement (.pwrVcoreReqWrite w v) := of_none rfl
theorem Guarded.vcoreSettled : Guarded.Statement .vcoreSettled := of_none rfl
theorem Guarded.thermalBandChange (t : BitVec 32) : Guarded.Statement (.thermalBandChange t) := of_none rfl
theorem Guarded.winnowBandChange (t : BitVec 32) : Guarded.Statement (.winnowBandChange t) := of_none rfl
theorem Guarded.overtempHold (t : BitVec 32) : Guarded.Statement (.overtempHold t) := of_none rfl
theorem Guarded.overtempReset (t : BitVec 32) : Guarded.Statement (.overtempReset t) := of_none rfl
theorem Guarded.vinWarning (mv : Nat) : Guarded.Statement (.vinWarning mv) := of_none rfl
theorem Guarded.vinInhibit (mv : Nat) : Guarded.Statement (.vinInhibit mv) := of_none rfl
theorem Guarded.vinRecover (mv : Nat) : Guarded.Statement (.vinRecover mv) := of_none rfl
theorem Guarded.holdWindowExpire : Guarded.Statement .holdWindowExpire := of_none rfl
theorem Guarded.vinReset (mv : Nat) : Guarded.Statement (.vinReset mv) := of_none rfl
theorem Guarded.railFault (n : Fin 8) : Guarded.Statement (.railFault n) := of_none rfl
theorem Guarded.railReset (n : Fin 8) : Guarded.Statement (.railReset n) := of_none rfl
theorem Guarded.moduleReset (mv : Nat) (bad : List (Fin 8 × Fin 256)) : Guarded.Statement (.moduleReset mv bad) := of_none rfl
theorem Guarded.nreset (low : Bool) : Guarded.Statement (.nreset low) := of_none rfl
theorem Guarded.alarmResume (w : Who) : Guarded.Statement (.alarmResume w) := of_none rfl
theorem Guarded.pwrAlarmEvtClear (w : Who) (v : BitVec 64) : Guarded.Statement (.pwrAlarmEvtClear w v) := of_none rfl
theorem Guarded.heldCmdPlace : Guarded.Statement .heldCmdPlace := of_none rfl
theorem Guarded.commandAccept (q : Fin 512) : Guarded.Statement (.commandAccept q) := of_none rfl
theorem Guarded.dataInComplete (tag : Fin 65536) : Guarded.Statement (.dataInComplete tag) := of_none rfl
theorem Guarded.noticePost (tag : Fin 65536) : Guarded.Statement (.noticePost tag) := of_none rfl
theorem Guarded.identify (tag : Fin 65536) : Guarded.Statement (.identify tag) := of_none rfl
theorem Guarded.read (tag : Fin 65536) (fault : Option (Fin 4)) : Guarded.Statement (.read tag fault) := of_none rfl
theorem Guarded.write (tag : Fin 65536) (fault : Option (Nat × UnitFault)) : Guarded.Statement (.write tag fault) := of_none rfl
theorem Guarded.flush (tag : Fin 65536) : Guarded.Statement (.flush tag) := of_none rfl
theorem Guarded.trim (tag : Fin 65536) (fault : Option (Nat × UnitFault)) : Guarded.Statement (.trim tag fault) := of_none rfl
theorem Guarded.verifyFixity (tag : Fin 65536) (fault : Option (Fin 4)) : Guarded.Statement (.verifyFixity tag fault) := of_none rfl
theorem Guarded.scan (tag : Fin 65536) : Guarded.Statement (.scan tag) := of_none rfl
theorem Guarded.loadProgram (tag : Fin 65536) : Guarded.Statement (.loadProgram tag) := of_none rfl
theorem Guarded.unloadProgram (tag : Fin 65536) : Guarded.Statement (.unloadProgram tag) := of_none rfl
theorem Guarded.run (tag : Fin 65536) : Guarded.Statement (.run tag) := of_none rfl
theorem Guarded.setPower (tag : Fin 65536) : Guarded.Statement (.setPower tag) := of_none rfl
theorem Guarded.getLog (tag : Fin 65536) : Guarded.Statement (.getLog tag) := of_none rfl
theorem Guarded.keyLoad (tag : Fin 65536) : Guarded.Statement (.keyLoad tag) := of_none rfl
theorem Guarded.firmwareStage (tag : Fin 65536) (bad : Option Nat) : Guarded.Statement (.firmwareStage tag bad) := of_none rfl
theorem Guarded.firmwareActivate (tag : Fin 65536) : Guarded.Statement (.firmwareActivate tag) := of_none rfl
theorem Guarded.abort (tag : Fin 65536) : Guarded.Statement (.abort tag) := of_none rfl
theorem Guarded.powerQuietWindowClose : Guarded.Statement .powerQuietWindowClose := of_none rfl
theorem Guarded.powerEntryAbandon : Guarded.Statement .powerEntryAbandon := of_none rfl
theorem Guarded.powerStatePrepared : Guarded.Statement .powerStatePrepared := of_none rfl
theorem Guarded.resetQp (w : Who) (q : Fin 512) : Guarded.Statement (.resetQp w q) := of_none rfl
theorem Guarded.resetAll (w : Who) : Guarded.Statement (.resetAll w) := of_none rfl
theorem Guarded.queueResetEnd : Guarded.Statement .queueResetEnd := of_none rfl
theorem Guarded.hqReady (w : Who) : Guarded.Statement (.hqReady w) := of_none rfl
theorem Guarded.qpCfgWrite (w : Who) (q : Fin 512) (v : BitVec 64) : Guarded.Statement (.qpCfgWrite w q v) := of_none rfl
theorem Guarded.flitReceive (f : BitVec 1024) : Guarded.Statement (.flitReceive f) := of_none rfl
theorem Guarded.flitTransmit (cls : Fin 4) : Guarded.Statement (.flitTransmit cls) := of_none rfl
theorem Guarded.nakWindowExpire : Guarded.Statement .nakWindowExpire := of_none rfl
theorem Guarded.replayTimeout : Guarded.Statement .replayTimeout := of_none rfl
theorem Guarded.skipSend (lane : Fin 8) : Guarded.Statement (.skipSend lane) := of_none rfl
theorem Guarded.ts1Detect (lane : Fin 8) : Guarded.Statement (.ts1Detect lane) := of_none rfl
theorem Guarded.pollTimeout (lanes : BitVec 8) : Guarded.Statement (.pollTimeout lanes) := of_none rfl
theorem Guarded.configComplete (peerGood : BitVec 8) (domPos : Fin 8) (grants : BitVec 64) (peerNew : Bool) (peerExp : BitVec 12) : Guarded.Statement (.configComplete peerGood domPos grants peerNew peerExp) := of_none rfl
theorem Guarded.laneBlockLockFail (lane : Fin 8) : Guarded.Statement (.laneBlockLockFail lane) := of_none rfl
theorem Guarded.laneErrorWindow (lane : Fin 8) (n : Nat) : Guarded.Statement (.laneErrorWindow lane n) := of_none rfl
theorem Guarded.linkBlockLockLoss (lane : Fin 8) : Guarded.Statement (.linkBlockLockLoss lane) := of_none rfl
theorem Guarded.retrain (w : Who) : Guarded.Statement (.retrain w) := of_none rfl
theorem Guarded.widen (w : Who) : Guarded.Statement (.widen w) := of_none rfl
theorem Guarded.linkActiveTimeout : Guarded.Statement .linkActiveTimeout := of_none rfl
theorem Guarded.pmEnter : Guarded.Statement .pmEnter := of_none rfl
theorem Guarded.pmRefuseRetry : Guarded.Statement .pmRefuseRetry := of_none rfl
theorem Guarded.idleEnterReceive (lanes : BitVec 8) : Guarded.Statement (.idleEnterReceive lanes) := of_none rfl
theorem Guarded.lowpowerEntryTimeout : Guarded.Statement .lowpowerEntryTimeout := of_none rfl
theorem Guarded.electricalIdleExit (byPeer : Bool) : Guarded.Statement (.electricalIdleExit byPeer) := of_none rfl
theorem Guarded.holdWindowTimeout : Guarded.Statement .holdWindowTimeout := of_none rfl
theorem Guarded.create (w : Who) (sl : Fin 256) (desc : BitVec 40) : Guarded.Statement (.create w sl desc) := of_none rfl
theorem Guarded.createComplete : Guarded.Statement .createComplete := of_none rfl
theorem Guarded.destroy (w : Who) (sl : Fin 256) : Guarded.Statement (.destroy w sl) := of_none rfl
theorem Guarded.destroyComplete : Guarded.Statement .destroyComplete := of_none rfl
theorem Guarded.slcBindWrite (w : Who) (k : Fin 4096) (v : BitVec 64) : Guarded.Statement (.slcBindWrite w k v) := of_none rfl
theorem Guarded.landingComplete (tag : Fin 65536) (grain : Nat) : Guarded.Statement (.landingComplete tag grain) := of_none rfl
theorem Guarded.landingStripeTimeout (set : Nat) : Guarded.Statement (.landingStripeTimeout set) := of_none rfl
theorem Guarded.mapUpdate (tag : Fin 65536) (grain : Nat) : Guarded.Statement (.mapUpdate tag grain) := of_none rfl
theorem Guarded.foldCommit (lsn : Nat) : Guarded.Statement (.foldCommit lsn) := of_none rfl
theorem Guarded.reclaim (set : Nat) : Guarded.Statement (.reclaim set) := of_none rfl
theorem Guarded.journalPageTimeout : Guarded.Statement .journalPageTimeout := of_none rfl
theorem Guarded.journalPageDurable : Guarded.Statement .journalPageDurable := of_none rfl
theorem Guarded.checkpoint (seg : Bool) (key : Nat) : Guarded.Statement (.checkpoint seg key) := of_none rfl
theorem Guarded.mapPageLoad (seg : Bool) (key : Nat) : Guarded.Statement (.mapPageLoad seg key) := of_none rfl
theorem Guarded.mount (facts : List DieFact) (rates : List (Nat × Nat)) : Guarded.Statement (.mount facts rates) := of_none rfl
theorem Guarded.unsealNs (w : Who) (sl : Fin 256) (ns : Fin 16) : Guarded.Statement (.unsealNs w sl ns) := of_none rfl
theorem Guarded.unsealModule (w : Who) : Guarded.Statement (.unsealModule w) := of_none rfl
theorem Guarded.sweep (w : Who) : Guarded.Statement (.sweep w) := of_none rfl
theorem Guarded.mapTimeWrite (w : Who) (v : BitVec 64) : Guarded.Statement (.mapTimeWrite w v) := of_none rfl
theorem Guarded.mapTimeTimeout : Guarded.Statement .mapTimeTimeout := of_none rfl
theorem Guarded.retentionSweep (set : Nat) (bits : Nat) (deep : Bool) : Guarded.Statement (.retentionSweep set bits deep) := of_none rfl
theorem Guarded.nandOpIssue (d : Fin 1536) : Guarded.Statement (.nandOpIssue d) := of_none rfl
theorem Guarded.nandStatusRead (d : Fin 1536) (fail : Bool) (decode : Fin 6) : Guarded.Statement (.nandStatusRead d fail decode) := of_none rfl
theorem Guarded.nandOpTimeout (d : Fin 1536) : Guarded.Statement (.nandOpTimeout d) := of_none rfl
theorem Guarded.resetLunTimeout (d : Fin 1536) : Guarded.Statement (.resetLunTimeout d) := of_none rfl
theorem Guarded.eraseSuspend (d : Fin 1536) (busy : Bool) : Guarded.Statement (.eraseSuspend d busy) := of_none rfl
theorem Guarded.eraseResume (d : Fin 1536) : Guarded.Statement (.eraseResume d) := of_none rfl
theorem Guarded.vccqOvercurrent (q : Fin 4) (ma : BitVec 16) : Guarded.Statement (.vccqOvercurrent q ma) := of_none rfl
theorem Guarded.vccqLow (q : Fin 4) (ma : BitVec 16) : Guarded.Statement (.vccqLow q ma) := of_none rfl
theorem Guarded.vccqLowTimeout (q : Fin 4) : Guarded.Statement (.vccqLowTimeout q) := of_none rfl
theorem Guarded.fchPtokPoolWrite (w : Who) (v : BitVec 64) : Guarded.Statement (.fchPtokPoolWrite w v) := of_none rfl
theorem Guarded.compress (e : Fin 8) (ctx : Fin 16) (fault : Option Nat) : Guarded.Statement (.compress e ctx fault) := of_none rfl
theorem Guarded.decompress (e : Fin 8) (ctx : Fin 16) : Guarded.Statement (.decompress e ctx) := of_none rfl
theorem Guarded.validate (e : Fin 8) (ctx : Fin 16) : Guarded.Statement (.validate e ctx) := of_none rfl
theorem Guarded.xtsEncrypt (q : Fin 4) (ctx : Fin 16) (fault : Option Nat) : Guarded.Statement (.xtsEncrypt q ctx fault) := of_none rfl
theorem Guarded.xtsDecrypt (q : Fin 4) (ctx : Fin 16) (fault : Option Nat) : Guarded.Statement (.xtsDecrypt q ctx fault) := of_none rfl
theorem Guarded.gcmEncrypt (q : Fin 4) (ctx : Fin 16) (fault : Option Nat) : Guarded.Statement (.gcmEncrypt q ctx fault) := of_none rfl
theorem Guarded.gcmDecrypt (q : Fin 4) (ctx : Fin 16) (fault : Option Nat) : Guarded.Statement (.gcmDecrypt q ctx fault) := of_none rfl
theorem Guarded.search (ctx : Fin 16) : Guarded.Statement (.search ctx) := of_none rfl
theorem Guarded.insert (ctx : Fin 16) : Guarded.Statement (.insert ctx) := of_none rfl
theorem Guarded.winnowDelete (ctx : Fin 16) : Guarded.Statement (.winnowDelete ctx) := of_none rfl
theorem Guarded.winnowClear (ctx : Fin 16) : Guarded.Statement (.winnowClear ctx) := of_none rfl
theorem Guarded.engineJobComplete (port : BitVec 8) (ctx : Fin 16) : Guarded.Statement (.engineJobComplete port ctx) := of_none rfl
theorem Guarded.grtOfflineWrite (w : Who) (e : Fin 8) (v : BitVec 64) : Guarded.Statement (.grtOfflineWrite w e v) := of_none rfl
theorem Guarded.cphOfflineWrite (w : Who) (q : Fin 4) (v : BitVec 64) : Guarded.Statement (.cphOfflineWrite w q v) := of_none rfl
theorem Guarded.keyErase (w : Who) (slot : Fin 2048) : Guarded.Statement (.keyErase w slot) := of_none rfl
theorem Guarded.keyReload (w : Who) (slot : Fin 2048) : Guarded.Statement (.keyReload w slot) := of_none rfl
theorem Guarded.spikeletStart (tag : Fin 65536) (k : Fin 4096) (fault : Option (Fin 4)) : Guarded.Statement (.spikeletStart tag k fault) := of_none rfl
theorem Guarded.spikeletEnd (tag : Fin 65536) (k : Fin 4096) (fault : Option (Fin 4)) : Guarded.Statement (.spikeletEnd tag k fault) := of_none rfl
theorem Guarded.recordWrite (tag : Fin 65536) : Guarded.Statement (.recordWrite tag) := of_none rfl
theorem Guarded.prefetch (sheaf : Fin 8) (k : Fin 4096) : Guarded.Statement (.prefetch sheaf k) := of_none rfl
theorem Guarded.evictionWriteback (cache : Fin 9) : Guarded.Statement (.evictionWriteback cache) := of_none rfl
theorem Guarded.scrubGo (w : Who) (v : BitVec 64) : Guarded.Statement (.scrubGo w v) := of_none rfl
theorem Guarded.scrubStop (w : Who) (v : BitVec 64) : Guarded.Statement (.scrubStop w v) := of_none rfl
theorem Guarded.scrubRead : Guarded.Statement .scrubRead := of_none rfl
theorem Guarded.eccCtlClear (w : Who) (v : BitVec 64) : Guarded.Statement (.eccCtlClear w v) := of_none rfl
theorem Guarded.drcInit (w : Who) (v : BitVec 64) : Guarded.Statement (.drcInit w v) := of_none rfl
theorem Guarded.dramFillRegion (q : Fin 5) : Guarded.Statement (.dramFillRegion q) := of_none rfl
theorem Guarded.retireRank (w : Who) (v : BitVec 64) : Guarded.Statement (.retireRank w v) := of_none rfl
theorem Guarded.migrationRegion : Guarded.Statement .migrationRegion := of_none rfl
theorem Guarded.dramRefresh (q : Fin 5) : Guarded.Statement (.dramRefresh q) := of_none rfl
theorem Guarded.mr4Read (q : Fin 5) (v : BitVec 8) : Guarded.Statement (.mr4Read q v) := of_none rfl
theorem Guarded.fwaProgram (w : Who) (v : BitVec 64) : Guarded.Statement (.fwaProgram w v) := of_none rfl
theorem Guarded.fwaClear (w : Who) (v : BitVec 64) : Guarded.Statement (.fwaClear w v) := of_none rfl
theorem Guarded.fwaErase (w : Who) (v : BitVec 64) : Guarded.Statement (.fwaErase w v) := of_none rfl
theorem Guarded.fwaSuspend (w : Who) (v : BitVec 64) : Guarded.Statement (.fwaSuspend w v) := of_none rfl
theorem Guarded.fwaResume (w : Who) (v : BitVec 64) : Guarded.Statement (.fwaResume w v) := of_none rfl
theorem Guarded.fwaOpComplete (ok : Bool) : Guarded.Statement (.fwaOpComplete ok) := of_none rfl
theorem Guarded.rdpRaise (w : Who) : Guarded.Statement (.rdpRaise w) := of_none rfl
theorem Guarded.rdpSeal (w : Who) : Guarded.Statement (.rdpSeal w) := of_none rfl
theorem Guarded.rdpLower (w : Who) : Guarded.Statement (.rdpLower w) := of_none rfl
theorem Guarded.confirm (w : Who) : Guarded.Statement (.confirm w) := of_none rfl
theorem Guarded.activationWindowExpire : Guarded.Statement .activationWindowExpire := of_none rfl
theorem Guarded.fwaLimp (w : Who) : Guarded.Statement (.fwaLimp w) := of_none rfl
theorem Guarded.frzNAssert : Guarded.Statement .frzNAssert := of_none rfl
theorem Guarded.freeze (w : Who) : Guarded.Statement (.freeze w) := of_none rfl
theorem Guarded.freezeComplete : Guarded.Statement .freezeComplete := of_none rfl
theorem Guarded.thaw (pin : Bool) : Guarded.Statement (.thaw pin) := of_none rfl
theorem Guarded.halt (w : Who) (v : BitVec 64) : Guarded.Statement (.halt w v) := of_none rfl
theorem Guarded.debugResume (w : Who) (v : BitVec 64) : Guarded.Statement (.debugResume w v) := of_none rfl
theorem Guarded.debugLower (w : Who) : Guarded.Statement (.debugLower w) := of_none rfl
theorem Guarded.dbgaccUpdate (v : BitVec 106) : Guarded.Statement (.dbgaccUpdate v) := of_none rfl
theorem Guarded.extest : Guarded.Statement .extest := of_none rfl
theorem Guarded.samplePreload (v : BitVec 2696) : Guarded.Statement (.samplePreload v) := of_none rfl
theorem Guarded.idcode : Guarded.Statement .idcode := of_none rfl
theorem Guarded.clamp : Guarded.Statement .clamp := of_none rfl
theorem Guarded.highz : Guarded.Statement .highz := of_none rfl
theorem Guarded.dbgacc : Guarded.Statement .dbgacc := of_none rfl
theorem Guarded.bypass : Guarded.Statement .bypass := of_none rfl
theorem Guarded.i2cRead (a : BitVec 40) : Guarded.Statement (.i2cRead a) := of_none rfl
theorem Guarded.registerWrite (w : Who) (a : BitVec 40) (v : BitVec 64) : Guarded.Statement (.registerWrite w a v) := of_none rfl
theorem Guarded.lanesLocked (lanes : BitVec 8) : Guarded.Statement (.lanesLocked lanes) := of_none rfl
theorem Guarded.vccqOutRecover (q : Fin 4) (ma : BitVec 16) : Guarded.Statement (.vccqOutRecover q ma) := of_none rfl
theorem Guarded.overtempRelease (t : BitVec 32) : Guarded.Statement (.overtempRelease t) := of_none rfl
theorem Guarded.dgsFinishDone (k : Fin 4096) : Guarded.Statement (.dgsFinishDone k) := of_none rfl
theorem Guarded.dramTrainingDone (q : Fin 5) (cached ok : Bool) : Guarded.Statement (.dramTrainingDone q cached ok) := of_none rfl
theorem Guarded.testLogicReset : Guarded.Statement .testLogicReset := of_none rfl
theorem Guarded.freezeMonitorReady (n : Fin 96) (j : Fin 2) : Guarded.Statement (.freezeMonitorReady n j) := of_none rfl

end Sys2Proof.Laws
end

