-- ==== Sys2Proof/Tests/Slice0.lean ====
section
/-! SUPPORT. Tests of the model. For each statement with hypotheses a theorem shows states and operands that meet them, clause by clause,
with what the clause then says of the next state; a term that each check of WellFormed refuses; and words laid out from the encodings of
chapter 04 with the instructions they stand for. -/

open Sys2Proof Sys2Proof.Machine

namespace Sys2Proof.Tests

set_option Elab.async false

/-! ## Small states -/

/-- The machine of a next state. -/
def nextOf : Host.Outcome State Fault Refusal → Mach
  | .next t => t.m
  | _ => Mach.reset

/-- The machine after one command. -/
def run (i : Instr) (m : Mach) : Mach := nextOf (exec i { State.reset with m := m })

/-- A cache that holds one line, of zeros. -/
def oneLine (base : Nat) : Cache :=
  { Cache.reset with lines := [{ base := base, way := 0, dirty := false, data := 0, chk := [], used := 0 }] }

/-- Thread k runs on core c, with the register file of t; its instruction cache holds the line of its pc. -/
def onCore (c k : Nat) (t : Thr) : Mach :=
  { Mach.reset with sch := { Sch.reset with thrs := [(k, { t with state := .running, core := c })],
                                            cores := [(c, { Core.reset with thr := some k, asking := false })] }
                    cch := { Cch.reset with l1i := [(c, oneLine (pcAddr t.pc / 64))] } }

/-- A ring-0 thread in the firmware array with g1 to g4 loaded. -/
def worker : Thr := { Thr.reset with ring := .r0, pc := 0x4000000, handler := 0x4000100, g := [(1, 5), (2, 7), (3, 0x8000000000000001), (4, 66)] }
/-- It runs on core 0 as thread 9. -/
def bench : Mach := onCore 0 9 worker

/-- `begins` of core c and thread k, as a test. -/
def starts (m : Mach) (c : Fin 72) (gd : BitVec 4) (k : Nat) : Bool :=
  m.runner c == some k && (m.fetch c k).2 == .ok () && ((m.fetch c k).1.breakpoint k).isNone && ((m.fetch c k).1.thr k).guard gd
/-- The machine after the fetch of core c. -/
def fetchedM (m : Mach) (c : Fin 72) (k : Nat) : Mach := (m.fetch c k).1
/-- An instruction took the exception x with detail d at address a, into the handler. -/
def took (m : Mach) (c : Fin 72) (k : Nat) (i : Instr) (x d : Nat) (a : W64) : Bool :=
  let u := (run i m).thr k
  starts m c 0 k && u.exc && u.pc == (m.thr k).handler && u.xa == a && u.xc == (((encode i).getD 0).setWidth 64 <<< 32 ||| at_ 8 d ||| at_ 0 x)
/-- An instruction completed on thread k, whose registers it changed by f. -/
def did (m : Mach) (c : Fin 72) (k : Nat) (i : Instr) (f : Thr → Thr) : Bool :=
  starts m c 0 k && (run i m).thr k == (f (m.thr k)).retire.advance
/-- An instruction completed on thread k and wrote v to rd. -/
def gave (m : Mach) (c : Fin 72) (k : Nat) (i : Instr) (rd : BitVec 5) (v : W64) : Bool := did m c k i fun t => t.gw rd v

/-- Requesters of register accesses. -/
def who0 : Who := { ring := .r0, slice := 0, tcb := 9, dbg := false }
def who1 : Who := { ring := .r1, slice := 0, tcb := 9, dbg := false }
def who2 (sl : Nat) : Who := { ring := .r2, slice := sl, tcb := 9, dbg := false }

/-- An address in a free buffer of the granary. -/
def spot : Nat := granaryBase + 0x400000
/-- The bench with three bytes at the spot, whose address stands in g5. -/
def memBench (t : Thr) : Mach :=
  { onCore 0 9 { t with g := [(1, 5), (2, 7), (3, 0x8000000000000001), (4, 66), (5, w64 spot)] } with
    mem := { cells := [(spot, 0x81), (spot + 1, 0x92), (spot + 2, 0xA3)], chk := [], tags := [] }
    cch := { Cch.reset with l1i := [(0, oneLine (pcAddr t.pc / 64))]
                            l1d := [(0, { Cache.reset with lines := [{ base := spot / 64, way := 0, dirty := false, data := 0xA39281, chk := [],
                                                                       used := 0 }] })] } }

/-! ## WellFormed refuses -/

theorem test_wf_cmp_comb : WellFormed (.cmp 0 0 1 2 3 3 0) = false := by decide
theorem test_wf_cmp_cond : WellFormed (.cmp 0 0 1 2 3 0 8) = false := by decide
theorem test_wf_mfs : WellFormed (.mfs 0 0 1 16) = false := by decide
theorem test_wf_mts : WellFormed (.mts 0 0 2 1) = false := by decide
theorem test_wf_cln_same : WellFormed (.cacheClnR 0 0 4 4) = false := by decide
theorem test_wf_inv_zero : WellFormed (.cacheInvR 0 0 0 4) = false := by decide
theorem test_wf_cmpct : WellFormed (.cmpCt 0 0 1 3 2 3) = false := by decide
theorem test_wf_illegal : WellFormed (.illegalInstruction 0 0x20464280) = false := by decide +kernel

/-! ## Words of the encodings (R126 to R172) -/

/-- OP, ADD under p2 (R127's example), and fn 0x0D, MAXU. -/
theorem test_word_op : decodeInsn 0 0x20464280 = some (.add 0 2 3 4 5) ∧ decodeInsn 0 0x0046428D = some (.maxu 0 0 3 4 5) := by decide +kernel
/-- Major 0x02: rd 1, ra 2, imm12 0xFFF. Major 0x06: rd 1, ra 2, kind 3, amount 63. -/
theorem test_word_imm : decodeInsn 0 0x00822FFF = some (.addi 0 0 1 2 0xFFF) ∧ decodeInsn 0 0x018220FF = some (.shifti 0 0 1 2 3 63) := by
  decide +kernel
/-- Major 0x0A: rd 1, K 1, imm16 0x1234. -/
theorem test_word_movi : decodeInsn 0 0x02831234 = some (.movi 0 0 2 1 true 0x1234) := by decide +kernel
/-- Majors 0x0C, 0x0D and 0x0E. -/
theorem test_word_predicates : decodeInsn 0 0x030821A7 = some (.cmp 0 0 1 2 3 1 7) ∧ decodeInsn 0 0x034917FF = some (.cmpi 0 0 1 1 2 0x7FF) ∧
    decodeInsn 0 0x038A7800 = some (.pred 0 0 1 2 3 3) := by decide +kernel
/-- LD.D g10, [g11 - 8] (R127's example) and ST.B, major 0x18. -/
theorem test_word_memory : decodeInsn 0 0x04D4BFF8 = some (.ldD 0 0 10 11 0xFF8) ∧ decodeInsn 0 0x06022001 = some (.stB 0 0 1 2 1) := by decide +kernel
/-- BR -3 under !p1 (R127's example), JLR and RESUME of major 0x22. -/
theorem test_word_control : decodeInsn 0 0x983FFFFD = some (.br 0 9 0x3FFFFD) ∧ decodeInsn 0 0x08822001 = some (.jlr 0 0 1 2) ∧
    decodeInsn 0 0x08800002 = some (.resume 0 0) := by decide +kernel
/-- MUL, major 0x24; CRC.STEP of fn 0b100_0111, major 0x25. -/
theorem test_word_arith : decodeInsn 0 0x09002180 = some (.mul 0 0 2 3) ∧ decodeInsn 0 0x094221C7 = some (.crcStep 0 0 1 2 3 1 3) := by decide +kernel
/-- SCAN.BLK with esz 3 and NE, major 0x26. -/
theorem test_word_block : decodeInsn 0 0x098BC800 = some (.scanBlk 0 0 1 3 true) := by decide +kernel
/-- MFS, WAITWORK, CACHE.CLN.R, JOB.TEST, DGS.FINISH, CMP.CT and LEDGER.AUDIT: majors 0x28 to 0x2E. -/
theorem test_word_system : decodeInsn 0 0x0A023000 = some (.mfs 0 0 1 3) ∧ decodeInsn 0 0x0A420000 = some (.waitwork 0 0 1) ∧
    decodeInsn 0 0x0A802181 = some (.cacheClnR 0 0 2 3) ∧ decodeInsn 0 0x0AC22182 = some (.jobTest 0 0 1 2 3) ∧
    decodeInsn 0 0x0B022182 = some (.dgsFinish 0 0 1 2 3) ∧ decodeInsn 0 0x0B4A2180 = some (.cmpCt 0 0 1 1 2 3) ∧
    decodeInsn 0 0x0B828000 = some (.ledgerAudit 0 0 1 2) := by decide +kernel
/-- Undefined slots, functions and reserved fields. -/
theorem test_word_undefined : decodeInsn 0 0 = none ∧ decodeInsn 0 0x01C00000 = none ∧ decodeInsn 0 0x0040000E = none ∧
    decodeInsn 0 0x00422090 = none ∧ decodeInsn 0 0x030B0000 = none := by decide +kernel

/-- The examples of R126 on any core. -/
theorem test_decode_words : decodeInsn 71 0x20464280 = some (.add 71 2 3 4 5) := by decide +kernel
/-- A well-formed instruction of every format comes back from its word, on the last core. -/
theorem test_decode_encode : (((Instr.jobTest 71 15 31 31 7).onCore).isSome ∧ WellFormed (.jobTest 71 15 31 31 7) = true) ∧
    (encode (.jobTest 71 15 31 31 7)).bind (decodeInsn 71) = some (.jobTest 71 15 31 31 7) := by decide +kernel

/-! ## The block as a whole -/

/-- StepRunsFront: a command in front, and an empty queue. -/
theorem test_step : step { State.reset with pending := [.idcode, .bypass] } = exec .idcode { State.reset with pending := [.bypass] } := rfl
theorem test_tick : (nextOf (step State.reset)).tb = 1 := by decide +kernel
/-- EveryCommandAnswers: a command in a state with another one waiting. -/
theorem test_answers : (match exec .idcode { State.reset with pending := [.bypass] } with | .next t => t.pending | _ => []) = [.bypass] := by
  decide +kernel
/-- TapIdentityKept: the port after reset is identified, and a step keeps it so. -/
theorem test_tap_identity : State.reset.tap.identified = true ∧
    (match step { State.reset with pending := [.testLogicReset] } with | .next t => t.tap.identified | _ => false) = true := by decide +kernel
/-- QuietCommands: a quiet command that answers. -/
theorem test_quiet : (Instr.timerExpire 3).quiet = true ∧ (run (.timerExpire 3) bench).mem = bench.mem := by decide +kernel

/-! ## Instructions on a core -/

/-- The bench can begin an instruction, and a thread of ring 2 without a window cannot fetch. -/
theorem test_begins : starts bench 0 0 9 = true := by decide +kernel

/-- BeforeTheBody: no runner; a fetch that faults; a breakpoint; a guard that is 0; a reserved encoding. -/
theorem test_before_the_body :
    Mach.reset.runner 0 = none ∧ run (.add 0 0 3 1 2) Mach.reset = Mach.reset ∧
    (let m := { (onCore 0 9 { worker with pc := 0x10000 }) with cch := Cch.reset }
     m.runner 0 = some 9 ∧ (m.fetch 0 9).2 = .fault 5 1 0x40000 ∧ ((run (.add 0 0 3 1 2) m).thr 9).xc = 0x105) ∧
    (let m : Mach := { bench with dbg := { bench.dbg with bps := [(2, { en := true, rings := 1, addr := 0x4000000 })] } }
     (fetchedM m 0 9).breakpoint 9 = some 2 ∧ ((run (.add 0 0 3 1 2) m).thr 9).xc = 0x209) ∧
    ((worker.guard 1) = false ∧ (run (.add 0 1 3 1 2) bench).thr 9 = (bench.thr 9).retire.advance) ∧
    (WellFormed (.mfs 0 0 1 16) = false ∧ took bench 0 9 (.mfs 0 0 1 16) 1 0 0 = true) := by decide +kernel

/-- FetchFrame: a fetch from DRAM of a line that reads well, on a core whose range serves. -/
theorem test_fetch_frame :
    (let m : Mach := { (onCore 3 9 { worker with pc := 0x400000000 }).setRank 0 { Rank.reset 0 with state := .service } with cch := Cch.reset }
     (m.peekLine (0x1000000000 / 64)).isSome = true ∧ (m.fetch 3 9).2 = .ok () ∧ ((m.fetch 3 9).1.shared 0).lines.length = 1) := by decide +kernel

/-- RegistersAndRetirement: g31, p7 and their neighbours. -/
theorem test_registers :
    ((worker.gw 31 9).gr 31 = 9 ∧ (worker.gw 31 9).gr 1 = 5 ∧ (worker.gw 0 9) = worker ∧ (worker.pw 7 true).pr 7 = true ∧ (worker.pw 0 false) = worker) ∧
    ((bench.completes 9 id).thr 9 = { worker with state := .running, pc := 0x4000001, retired := 1 }) := by decide +kernel

/-- ExceptionEntry: into the handler; without one; within one. -/
theorem test_exception :
    (let u := (bench.exception 9 0x20464280 3 5 0x77).thr 9
     u.xpc = 0x4000000 ∧ u.xc = 0x2046428000000503 ∧ u.xa = 0x77 ∧ u.exc = true ∧ u.pc = 0x4000100) ∧
    (let m := onCore 0 9 { worker with handler := 0 }
     ((m.exception 9 1 2 1 0).thr 9).state = .stopped ∧ ((m.exception 9 1 2 1 0).thr 9).xrec = 0x100000102) ∧
    (((onCore 0 9 { worker with exc := true }).exception 9 1 2 1 0).thr 9).state = .stopped := by decide +kernel

/-- A pipeline whose spikelet 0 runs on thread 9 with a budget of n instructions. -/
def budget (n : Nat) : Scan :=
  { prog := 0, classify := false, sealRec := false, rstride := 0, keyoff := 0, table := 0, outbufs := 1, sealSlot := 0, insnMax := n,
    threads := [9], next := 1, spks := [(0, { state := .running 9, dbuf := 600, inb := [], cls := [], outb := [601] })], recs := 0,
    bytes := 0, blocks := 0, grains := [], ctx := none, rest := [] }

/-- ExceptionEntry: the word of zeros; a filter thread that has retired its budget of 3. -/
theorem test_undefined_and_budget :
    (decodeInsn 0 0 = none ∧ took bench 0 9 (.illegalInstruction 0 0) 1 0 0 = true) ∧
    (let sc := budget 3
     let m : Mach := { onCore 0 9 { worker with ring := .r2, retired := 3 } with scans := [(0, sc)] }
     m.spent 9 = true ∧ ((run (.insnmaxExceeded 0) m).thr 9).state = .stopped ∧ ((run (.insnmaxExceeded 0) m).thr 9).xrec = 0x200) := by decide +kernel

/-- RegisterResults: operands at the ends of their ranges. -/
theorem test_register_results :
    gave bench 0 9 (.sub 0 0 6 1 2) 6 0xFFFFFFFFFFFFFFFE = true ∧ gave bench 0 9 (.sar 0 0 6 3 4) 6 0xE000000000000000 = true ∧
    gave bench 0 9 (.min 0 0 6 3 1) 6 0x8000000000000001 = true ∧ gave bench 0 9 (.minu 0 0 6 3 1) 6 5 = true ∧
    gave bench 0 9 (.ror 0 0 6 3 4) 6 0x6000000000000000 = true ∧ gave bench 0 9 (.sextB 0 0 6 4) 6 66 = true ∧
    gave bench 0 9 (.clz 0 0 6 1) 6 61 = true ∧ gave bench 0 9 (.ctz 0 0 6 0) 6 64 = true ∧ gave bench 0 9 (.bswap 0 0 6 3) 6 0x0100000000000080 = true ∧
    gave bench 0 9 (.brevB 0 0 6 4) 6 0x42 = true ∧ (0x0040000E : W32).toNat / 2 ^ 22 % 64 = 1 := by decide +kernel

/-- ImmediateAndPredicateResults: the most negative immediate, a MOVI with K, a signed and an unsigned condition, a reserved comb. -/
theorem test_immediates :
    gave bench 0 9 (.addi 0 0 6 1 0x800) 6 0xFFFFFFFFFFFFF805 = true ∧ gave bench 0 9 (.shifti 0 0 6 3 3 63) 6 3 = true ∧
    gave bench 0 9 (.movi 0 0 3 3 true 0xABCD) 3 0xABCD000000000001 = true ∧ gave bench 0 9 (.movi 0 0 1 6 false 0xABCD) 6 0xABCD0000 = true ∧
    did bench 0 9 (.cmp 0 0 1 3 1 0 2) (fun t => t.pw 1 true) = true ∧ did bench 0 9 (.cmp 0 0 1 3 1 0 4) (fun t => t.pw 1 false) = true ∧
    took bench 0 9 (.cmp 0 0 1 3 1 3 0) 1 0 0 = true ∧ took bench 0 9 (.cmp 0 0 1 3 1 0 8) 1 0 0 = true ∧
    did bench 0 9 (.cmpi 0 0 1 4 1 0x7FF) (fun t => t.pw 1 true) = true ∧ did bench 0 9 (.pred 0 0 2 0 0 2) (fun t => t.pw 2 false) = true := by
  decide +kernel

/-- ProductsAndDivision: products that land at position 4, a signed product, a division step that subtracts. -/
theorem test_products :
    (let t := (worker.issueProduct (7, 9)).retire
     t.retire.retire.ph = 0 ∧ t.retire.retire.retire.ph = 7 ∧ t.retire.retire.retire.pl = 9) ∧
    (let t := { worker with ldc := true }
     ((t.deliver 1 8).retire).gr 1 = 5 ∧ ((t.deliver 1 8).retire.retire).gr 1 = 8 ∧ (worker.deliver 1 8).gr 1 = 8) ∧
    did bench 0 9 (.mul 0 0 3 3) (fun t => t.issueProduct (0x4000000000000001, 1)) = true ∧
    did bench 0 9 (.mulh 0 0 3 2) (fun t => t.issueProduct (0xFFFFFFFFFFFFFFFC, 0x8000000000000007)) = true ∧
    did (onCore 0 9 { worker with ph := 4, pl := 0x8000000000000000 }) 0 9 (.divStep 0 0 1) (fun t => { t with ph := 4, pl := 1 }) = true := by decide +kernel

/-- CrcStepResult: a step of CRC-16 over one byte. -/
theorem test_crc : gave bench 0 9 (.crcStep 0 0 6 3 2 3 0) 6 (crcFold 3 1 [7]) = true ∧ (crcFold 3 1 [7]).toNat < 2 ^ 16 := by decide +kernel
/-! ## Memory -/

/-- The machine and word of a load at a word's address. -/
def wordAt (m : Mach) (a : Nat) : Mach × WordRead := (fetchedM m 0 9).coreWord 0 false 9 a

/-- ByteLaneCode, at the last bit of each part. -/
theorem test_lane_code : decodeByte 0x5A (checkOf 0x5A ^^^ 16) = .corrected 0x5A ∧ decodeByte (0x5A ^^^ 0x80) (checkOf 0x5A) = .corrected 0x5A ∧
    decodeByte (0x5A ^^^ 0x81) (checkOf 0x5A) = .bad := by decide +kernel

/-- LoadStoreResults: loads signed and not, at an odd byte, in compatibility mode, and stores. -/
theorem test_loads_and_stores :
    (let m := memBench worker
     regionOf spot = .granary ∧ (fetchedM m 0 9).windowByte 9 .read spot = none ∧ (wordAt m spot).2 = .ok [0x81, 0x92, 0xA3, 0, 0, 0, 0, 0] ∧
     gave m 0 9 (.ldBs 0 0 6 5 1) 6 0xFFFFFFFFFFFFFF92 = true ∧ gave m 0 9 (.ldH 0 0 6 5 0) 6 0x9281 = true ∧
     gave m 0 9 (.ldW 0 0 6 5 0) 6 0xA39281 = true) ∧
    (let m := memBench { worker with ldc := true }
     ((run (.ldD 0 0 1 5 0) m).thr 9).gr 1 = 5 ∧ ((run (.ldD 0 0 1 5 0) m).thr 9).pload.isSome = true) ∧
    (let m := memBench worker
     (fetchedM m 0 9).storeReady spot = .ok [] ∧ ((fetchedM m 0 9).core 0).thr = some 9 ∧ (fetchedM m 0 9).windowByte 9 .write spot = none ∧
     (((run (.stH 0 0 3 5 2) m).shared 0).find (spot / 64)).map (fun l => l.byte 2) = some 1) := by decide +kernel

/-- AccessFaults: misaligned; above 40 bits by ring 0 and by ring 2; out of a window; control space. -/
theorem test_access_faults :
    (let m := memBench worker
     took m 0 9 (.ldW 0 0 6 5 2) 4 0 (w64 (spot + 2)) = true ∧ took m 0 9 (.stD 0 0 6 3 7) 5 1 0x8000000000000008 = true ∧
     took m 0 9 (.ldW 0 0 6 3 0) 4 0 0x8000000000000001 = true ∧ took m 0 9 (.stD 0 0 3 3 0) 4 0 0x8000000000000001 = true) ∧
    (let m := onCore 0 9 { worker with ring := .r1, pc := 0x40100000, g := [(5, 0x8000000000000000), (6, w64 fwaBase), (7, 0x200000000)] }
     starts m 0 0 9 = true ∧ took m 0 9 (.ldB 0 0 6 5 0) 3 5 0x8000000000000000 = true ∧
     (fetchedM m 0 9).windowByte 9 .read fwaBase = some 5 ∧ took m 0 9 (.ldD 0 0 5 6 0) 3 5 (w64 fwaBase) = true ∧
     took m 0 9 (.stB 0 0 5 6 0) 3 5 (w64 fwaBase) = true ∧ regionOf 0x200000000 = .control ∧
     took m 0 9 (.ldB 0 0 6 7 0) 5 2 0x200000000 = true ∧ took m 0 9 (.stD 0 0 6 7 4) 5 2 0x200000004 = true) := by decide +kernel

/-- StoreHitFrame: a line of zeros in the sheaf of core 0. -/
theorem test_store_hit :
    (let m := Mach.reset.setShared 0 { Cache.reset with lines := [Line.make (spot / 64) 0 false (zeros 64)] }
     m.bypass (domainOf 0) = false ∧ ((m.shared 0).find (spot / 64)).isSome = true ∧
     (((m.coreStore 0 (spot + 63) [0x55]).shared 0).find (spot / 64)).map (fun l => (l.dirty, l.byte 63, l.byte 62)) = some (true, 0x55, 0)) := by
  decide +kernel

/-! ## Control flow, waiting, block repeat, jobs, digests -/

/-- ControlTransfers: backwards, off the end of the 40 bits, a return, a misaligned target, RESUME in and out of a handler. -/
theorem test_control :
    ((run (.bl 0 0 0x3FFFFD) bench).thr 9).pc = 0x3FFFFFD ∧ ((run (.bl 0 0 0x3FFFFD) bench).thr 9).gr 31 = 0x10000004 ∧
    (let m := onCore 0 9 { worker with g := [(5, 0x10000040), (6, 0x10000042), (7, 0x10000000000)] }
     ((run (.jlr 0 0 1 5) m).thr 9).pc = 0x4000010 ∧ ((run (.jlr 0 0 1 5) m).thr 9).gr 1 = 0x10000004 ∧ took m 0 9 (.jr 0 0 6) 4 0 0x10000042 = true ∧
     took m 0 9 (.jlr 0 0 1 7) 5 1 0x10000000000 = true) ∧
    took (onCore 0 9 { worker with pc := 0x4000000 }) 0 9 (.jr 0 0 3) 4 0 0x8000000000000001 = true ∧
    took bench 0 9 (.resume 0 0) 1 0 0 = true ∧
    (let t := { worker with exc := true, xpc := 0x4000200, savLoad := none }
     (run (.resume 0 0) (onCore 0 9 t)).thr 9 = { t with state := .running, pc := 0x4000200, exc := false, retired := 1 }) := by
  decide +kernel

/-- SpecialRegisters: tb, ts, a window register in the rings that have none and in the one that has, and xpc. -/
theorem test_special :
    gave { bench with tb := 77 } 0 9 (.mfs 0 0 6 3) 6 77 = true ∧ gave bench 0 9 (.mfs 0 0 6 4) 6 (worker.ts 9) = true ∧
    took bench 0 9 (.mfs 0 0 6 15) 2 1 0 = true ∧ did bench 0 9 (.mts 0 0 5 3) (fun t => { t with xpc := 0 }) = true ∧
    (let w : W64 := 0xF010000001000000
     let m := (onCore 0 9 { worker with ring := .r2, pc := 0x400000000, wn := [(0, w)] }).setRank 0 { Rank.reset 0 with state := .service }
     starts m 0 0 9 = true ∧ gave m 0 9 (.mfs 0 0 6 8) 6 w = true) := by decide +kernel
/-- memBench with g24 to g27 for the block-repeat instructions. -/
def blockBench (count : W64) (dst : Nat) (v27 : W64) : Mach :=
  let m := memBench worker
  m.modThr 9 fun t => { t with g := [(24, count), (25, w64 spot), (26, w64 dst), (27, v27)] }

/-- WaitingAndPosting: a pending event, none, a past and a later time, a post and a post of no software event, a yield. -/
theorem test_waiting :
    (let m : Mach := { bench with sch := { bench.sch with events := [(40, { Evt.reset with bound := true, tcb := 9, pend := 1 })] } }
     (fetchedM m 0 9).pendingFor 9 = some (40, none) ∧ (fetchedM m 0 9).insnMax 9 = none ∧ ((run (.waitwork 0 0 6) m).thr 9).gr 6 = 40 ∧
     ((run (.waitwork 0 0 6) m).evt 40).pend = 0) ∧
    ((fetchedM bench 0 9).pendingFor 9 = none ∧ ((run (.waitwork 0 0 6) bench).thr 9).waitKind = .waitwork ∧
     ((run (.waitwork 0 0 6) bench).core 0).thr = none ∧ ((run (.waitwork 0 0 6) bench).core 0).asking = true) ∧
    ((run (.sleep 0 0 1) { bench with tb := 5 }).thr 9).pc = 0x4000001 ∧ ((run (.sleep 0 0 1) { bench with tb := 4 }).thr 9).deadline = 5 ∧
    (let m := onCore 0 9 { worker with g := [(1, 928), (2, 992), (3, 927)] }
     ((run (.post 0 0 1) m).evt 928).pend = 1 ∧ took m 0 9 (.post 0 0 2) 3 5 0 = true ∧ took m 0 9 (.post 0 0 3) 3 5 0 = true) ∧
    (run (.yield 0 0) bench).sch.ready = [{ tcb := 9, level := 31, stamp := 0 }] ∧ ((run (.yield 0 0) bench).thr 9).wake = .yielded := by decide +kernel

/-- BlockRepeat: counts of zero; one element compared unequal, scanned and moved. -/
theorem test_block_repeat :
    did (blockBench 0 (spot + 8) 0) 0 9 (.movBlk 0 0 3) id = true ∧ did (blockBench 0 (spot + 8) 0) 0 9 (.cmpBlk 0 0 1 3) (fun t => t.pw 1 true) = true ∧
    (let m := blockBench 1 (spot + 8) 0x81
     m.dbg.entering = false ∧ ((fetchedM m 0 9).readAt 0 9 (w64 spot) 1).2 = .ok 0x81 ∧
     did m 0 9 (.cmpBlk 0 0 1 0) (fun t => t.pw 1 false) = true ∧ did m 0 9 (.scanBlk 0 0 1 0 false) (fun t => t.pw 1 true) = true ∧
     did m 0 9 (.scanBlk 0 0 1 0 true) (fun t => ((t.gw 25 (w64 (spot + 1))).gw 24 0).pw 1 false) = true) := by decide +kernel
theorem test_block_write :
    (let m := blockBench 1 (spot + 16) 0x5A
     did m 0 9 (.movBlk 0 0 1) (fun t => ((t.gw 25 (w64 (spot + 2))).gw 26 (w64 (spot + 18))).gw 24 0) = true ∧
     did m 0 9 (.fillBlk 0 0 1) (fun t => (t.gw 26 (w64 (spot + 18))).gw 24 0) = true) := by decide +kernel

/-- CacheRanges: a length of zero, and one line of the granary. -/
theorem test_cache_ranges :
    (let m := onCore 0 9 { worker with g := [(5, w64 spot), (6, 64)] }
     (fetchedM m 0 9).lineTurn 9 .read spot = .act ∧ (fetchedM m 0 9).lineTurn 9 .write spot = .act ∧
     ((run (.cacheClnR 0 0 5 6) m).thr 9).gr 5 = w64 (spot + 64) ∧ ((run (.cacheInvR 0 0 5 6) m).thr 9).gr 6 = 0) ∧
    did (onCore 0 9 { worker with g := [(5, w64 spot)] }) 0 9 (.cacheInvR 0 0 5 6) id = true := by decide +kernel

/-- A job of context 2 at a port, in a state. -/
def job (st : JobState) (desc : List Byte) : Job :=
  { ctx := 2, num := 7, tcb := 9, ring := .r0, slice := 0, desc := desc, descOk := true, state := st, status := 0, result := 3, read := 0,
    faulty := false, key := 0, qbufs := [], moved := 0, accepted := false, evDone := false }
/-- A machine with a thread on core 0 and one job at a port. -/
def jobBench (p : Nat) (j : Job) : Mach :=
  { onCore 0 9 { worker with g := [(5, w64 (spot + 1)), (6, w64 spot), (7, 0x10), (8, 0x0F), (10, jobHandle p 2 7)] } with
    eng := [(p, { Eng.reset with jobs := [j] })] }

/-- JobInstructions: a misaligned address, no port, a submission of a descriptor of zeros; a job complete, in work, and none. -/
theorem test_jobs :
    (let m := jobBench 0x20 (job .queued [])
     took m 0 9 (.jobSubmit 0 0 1 5 7) 4 0 (w64 (spot + 1)) = true ∧ took m 0 9 (.jobSubmit 0 0 1 6 8) 3 5 0 = true ∧
     ((fetchedM m 0 9).readDesc 0 9 spot).2 = .ok (zeros 16) ∧ ((fetchedM m 0 9).readDesc 0 9 spot).1.slotFree 0x10 = true ∧
     ((run (.jobSubmit 0 0 1 6 7) m).thr 9).gr 1 = at_ 48 0x10 ∧ ((run (.jobSubmit 0 0 1 6 7) m).engine 0x10).jobs.length = 1) ∧
    (let m := jobBench 0x20 (job .complete [])
     ((fetchedM m 0 9).jobOf 9 (jobHandle 0x20 2 7)).isSome = true ∧ ((run (.jobWait 0 0 1 10) m).thr 9).gr 1 = 0x30000 ∧
     ((run (.jobTest 0 0 1 10 3) m).thr 9).pr 3 = true ∧ ((run (.jobWait 0 0 1 6) m).thr 9).gr 1 = BitVec.allOnes 64) ∧
    (let m := jobBench 0x20 (job .ran [])
     ((run (.jobWait 0 0 1 10) m).thr 9).waitKind = .jobWait ∧ ((run (.jobTest 0 0 1 10 3) m).thr 9).pr 3 = false) := by decide +kernel

/-- A digest context of ring 0, opened by thread 9, at handle 1. -/
def digestBench : Mach :=
  { onCore 0 9 { worker with g := [(1, 1), (2, 64), (5, w64 spot), (6, 2)] } with
    dgs := { Dgs.reset with ctxs := [(1, { Dctx.reset with open_ := true, tcb := 9 })] } }

/-- DigestContexts: a context free to open, one named and one not, no bytes, a block, a finish, a release, and the finish's end. -/
theorem test_digests :
    ((fetchedM digestBench 0 9).ctxsUsed (quadOf 0)).length < 16 ∧ ((fetchedM digestBench 0 9).ledger 7).free ≠ 0 ∧
    (fetchedM digestBench 0 9).ctxFor worker 1 = some 1 ∧ (fetchedM digestBench 0 9).ctxFor worker 2 = none ∧
    took digestBench 0 9 (.dgsRelease 0 0 6) 3 5 0 = true ∧ did digestBench 0 9 (.dgsUpdate 0 0 0 1 5) id = true ∧
    ((fetchedM digestBench 0 9).readBytes spot 64).2 = .ok (zeros 64) ∧ (((run (.dgsUpdate 0 0 2 1 5) digestBench).dctx 1).fresh) = false ∧
    (let m := run (.dgsFinish 0 0 6 1 5) (run (.dgsUpdate 0 0 2 1 5) digestBench)
     (m.thr 9).waitKind = .dgsFinish ∧ (m.thr 9).waitAddr = spot ∧ (m.thr 9).waitRd = 6 ∧ (m.dgsFinish 9 1).isSome = true ∧
     ((run (.dgsFinishDone 9) m).thr 9).wake = .value 0) ∧
    ((run (.dgsRelease 0 0 1) digestBench).dctx 1).open_ = false := by decide +kernel

/-- MeasureCompareAudit: a range that reads, a range compared with itself, a ring that may not extend, and books without a flag. -/
theorem test_measure :
    (match (fetchedM (memBench worker) 0 9).loadRange 0 9 spot 64 with | (_, .ok x) => x.length | _ => 0) = 64 ∧
    ((run (.cmpCt 0 0 4 0 5 5) (memBench worker)).thr 9).pr 4 = true ∧
    (let m := onCore 0 9 { worker with ring := .r1, pc := 0x40100000 }
     took m 0 9 (.mregExtend 0 0 3 5) 2 2 0 = true) ∧
    (let m := (onCore 0 9 { worker with ring := .r2, pc := 0x400000000, wn := [(0, 0xF010000001000000)] }).setRank 0 { Rank.reset 0 with state := .service }
     starts m 0 0 9 = true ∧ (fetchedM m 0 9).auditFlags ((fetchedM m 0 9).who 9) = (0, false, none) ∧
     ((run (.ledgerAudit 0 0 6 2) m).thr 9).pr 2 = true) := by decide +kernel
/-! ## The granary, threads, mailboxes and locks -/

/-- A command answered the register access a. -/
def said (i : Instr) (m : Mach) (a : Answer) : Bool := (run i m).port == a
/-- Reset with thread block k as t. -/
def withThr (k : Nat) (t : Thr) : Mach := Mach.reset.setThr k t
/-- Reset with buffer 5 owned by ring 0's thread 9 in class 0, and with the books to match. -/
def bufBench : Mach :=
  let m := Mach.reset.setBuf 5 { state := .owned, owner := who0.owner, cls := 0, charged := none, cplOk := true }
  let m1 := m.setCls 0 { m.cls 0 with held := 1 }
  m1.setLedger 0 { m1.ledger 0 with free := (m1.ledger 0).free - 1, held := 1 }

/-- GranaryBuffers: classes at both ends with a reason and with none, ring 2 in its one class, and a held allocation. -/
theorem test_allocation :
    Mach.reset.resting = false ∧ Mach.reset.allocReason 0 who0.charge = 0 ∧ Mach.reset.allocReason 5 who0.charge = 0 ∧
    Mach.reset.allocReason 5 (who2 255).charge ≠ 0 ∧
    said (.grnTryalloc (who2 255) 5) Mach.reset (.value (flagAt 63 true ||| at_ 60 (Mach.reset.allocReason 5 (who2 255).charge))) = true ∧
    said (.grnAlloc (who2 255) 5) Mach.reset .held = true ∧
    (let m : Mach := { Mach.reset with grn := { Grn.reset with held := [{ who := who1, cls := 3, thread := false }] } }
     (m.grn.held[0]?).map (fun h => m.allocReason h.cls h.who.charge) = some 0) := by decide +kernel

/-- GranaryBuffers: the owner, another ring-1 requester, targets at the ends of a kind, a buffer in transit. -/
theorem test_buffer_release :
    bufBench.bufOf 5 = some 5 ∧ bufBench.mayFree who0 5 = true ∧ bufBench.mayFree who1 5 = false ∧ (bufBench.buf 5).cplOk = true ∧
    (bufBench.buf 5).owner.extractLsb' 12 4 ≠ 0xB ∧ giveTarget 0x30FF = true ∧ giveTarget 0x3100 = false ∧
    ((run (.grnFree who0 5) bufBench).buf 5) = Buf.reset ∧ (run (.grnFree who1 5) bufBench).grn.faultCnt = 1 ∧
    (let m := run (.grnGive who0 0x30FF0005) bufBench
     (m.buf 5).state = .transit ∧ (m.grn.handoffs.find? fun x => x.1 == 5) = some (5, 0x30FF) ∧
     ((run (.bufferHandoffAccept 5) m).buf 5).owner = 0x30FF) ∧
    said (.grnRecount who0 1) bufBench .done = true ∧ said (.grnRecount who1 1) bufBench (.denied 2) = true := by decide +kernel

/-- ThreadBlocks: blocks for a ring and for a live slice, an IDLE block's registers, PRIO of a READY thread. -/
theorem test_thread_blocks :
    (Mach.reset.ledger 4).sealed = true ∧ Mach.reset.tcbReason none = 0 ∧
    (let m := Mach.reset.setSlice 3 { Mach.reset.slice 3 with state := .live, desc := { (Mach.reset.slice 3).desc with tcbq := 1 } }
     m.tcbReason (some 3) = 0) ∧
    said (.schTcbAlloc (who2 0)) Mach.reset (.denied 1) = true ∧ said (.tcbFieldWrite (who2 0) 0 4 7) Mach.reset (.denied 2) = true ∧
    (let m := withThr 4095 { Thr.reset with state := .idle, ring := .r1 }
     m.mayBlock who1 4095 = true ∧ ((run (.tcbFieldWrite who1 4095 1 7) m).thr 4095).mask = 7 ∧
     ((run (.tcbFieldWrite who1 4095 2 (w64 (pcAddr 0x3FFFFFFFFF))) m).thr 4095).entry = 0x3FFFFFFFFF) ∧
    (let m := withThr 0 { Thr.reset with state := .ready, prio := 4 }
     let m1 : Mach := { m with sch := { m.sch with ready := [{ tcb := 0, level := 4, stamp := 0 }, { tcb := 8, level := 31, stamp := 0 }] } }
     (run (.tcbPrioWrite who0 0 (at_ 40 31)) m1).sch.ready.map (·.tcb) = [8, 0]) := by decide +kernel

/-- A machine with a checked program of ring 0 at the start of program memory, and block 9 to enter it. -/
def programBench (t : Thr) : Mach :=
  let m := withThr 9 { t with mask := 1, entry := 0x400000010, handler := 0x400000004, arg := 77 }
  { m with slc := { m.slc with progs := [(16384, { ldc := false, span := 1, base := 0x1000000000, ring := .r0, entry := 0x1000000040, bodyLen := 4096 })] } }

/-- ThreadBlocks: START and RESTART of a program's thread, a START refused, STOP, DELETE, and commands to a free block. -/
theorem test_thread_commands :
    (let m := programBench { Thr.reset with state := .idle }
     m.startCode who0 9 = 0 ∧ m.mayBlock who0 9 = true ∧ m.readyHeld 9 = false ∧
     (m.imageAt (pcAddr (m.thr 9).entry)).map (fun i => decide (m.entriesUsed + ((m.thr 9).started i).groups.length ≤ m.sch.pool)) = some true ∧
     ((run (.start who0 9) m).thr 9).state = .ready ∧ ((run (.start who0 9) m).thr 9).gr 1 = 77) ∧
    ((run (.restart who0 9) (programBench { Thr.reset with state := .stopped })).thr 9).state = .ready ∧
    (let m := withThr 9 { Thr.reset with state := .idle }
     m.startCode who0 9 = 1 ∧ ((run (.start who0 9) m).thr 9).err = 1) ∧
    ((run (.stop who0 9) bench).thr 9).stopPend = true ∧ ((run (.stop who0 4) (withThr 4 { Thr.reset with state := .ready })).thr 4).state = .stopped ∧
    ((run (.delete who0 4095) Mach.reset).thr 4095).err = 4 ∧ (withThr 4095 { Thr.reset with state := .stopped }).eng = [] := by decide +kernel

/-- A machine with threads 4 and 9 READY. -/
def readyBench : Mach :=
  let m := (withThr 9 { Thr.reset with state := .ready, mask := 1 }).setThr 4 { Thr.reset with state := .ready, mask := 2 }
  { m with sch := { m.sch with ready := [{ tcb := 4, level := 31, stamp := 0 }, { tcb := 9, level := 31, stamp := 0 }] } }

/-- DispatchAndWaking: a core with a choice, one without, an unsound block, a sleeper at its time, a held raise. -/
theorem test_dispatch :
    (readyBench.choice 64 = some 9 ∧ readyBench.choice 65 = some 4 ∧ readyBench.choice 0 = none ∧ readyBench.unsound (.block 9) = false ∧
     ((run (.coreAskWork 64) readyBench).core 64).thr = some 9 ∧ (run (.coreAskWork 64) readyBench).sch.ready.map (·.tcb) = [4]) ∧
    (let m : Mach := { readyBench with pwr := { readyBench.pwr with mism := [.block 9] } }
     m.unsound (.block 9) = true ∧ ((run (.coreAskWork 64) m).thr 9).state = .stopped) ∧
    (let m := withThr 9 { Thr.reset with state := .waiting, waitKind := .sleep, deadline := 0 }
     m.entriesUsed + (m.thr 9).groups.length ≤ m.sch.pool ∧ ((run (.sleepWake 9) m).thr 9).wake = .slept) ∧
    (let m : Mach := { Mach.reset with sch := { Sch.reset with held := [.post 40 9] } }
     m.sch.held[0]? = some (.post 40 9) ∧ ((run (.heldRaiseAccept 0) m).evt 40).pend = 1) := by decide +kernel

/-- EventsTimersWindows: an event at each end of the bindable ranges, a timer before and at its time, a window's end. -/
theorem test_events :
    (let m := withThr 9 { Thr.reset with state := .idle }
     ((run (.schEvtWrite who0 799 (flagAt 63 true ||| at_ 32 9)) m).evt 799).bound = true ∧
     ((run (.schEvtWrite who0 864 (flagAt 63 true ||| at_ 32 9)) m).evt 864).tcb = 9 ∧
     said (.schEvtWrite who1 799 0) m (.denied 2) = true) ∧
    (let m := run (.schTmrWrite who1 15 3) Mach.reset
     (m.tmr 15).armed = true ∧ (run (.timerExpire 15) m).sch.events = m.sch.events ∧
     ((run (.timerExpire 15) { m with tb := 3 }).evt 879).pend = 1) ∧
    (let m := run (.obsWindowWrite who0 true 2) Mach.reset
     m.sch.obsOpen = true ∧ ((run .obsWindowClose { m with tb := 2 }).evt 884).pend = 1) := by decide +kernel

/-- A mailbox of rings 0 and 1 with a message in it or not. -/
def boxBench (k : Nat) (full : Bool) : Mach :=
  Mach.reset.setBox k { (Mach.reset.box k) with snd := .ring1, rcv := .ring0, full := full, msg := if full then 0x103000000 - 1 else 0,
                                                window := if full then some (0, 10000) else none, bells := 6, dbmask := 2 }

/-- Mailboxes: posts at the ends of the ranges, to an empty box and a full one; TAKE; a window's end. -/
theorem test_mailboxes :
    (let m := boxBench 511 false
     (m.box 511).snd.admits who1 = true ∧ (m.box 511).rcv.admits who1 = false ∧ (m.box 511).snd.admits (who2 0) = false ∧
     ((run (.mbxPost who1 511 (w64 granaryBase)) m).box 511).full = true ∧ ((run (.mbxPost who1 511 0x17FFFFFFFF) m).box 511).pend = 1 ∧
     ((run (.mbxPost who1 511 (w64 (granaryBase - 1))) m).box 511).badptr = true ∧ said (.mbxPost (who2 0) 511 0) m (.denied 2) = true ∧
     said (.mbxTake who0 511) m (.value 0) = true ∧ said (.mbxTake who1 511) m (.denied 1) = true) ∧
    (let m := boxBench 511 true
     ((run (.mbxPost who1 511 (w64 granaryBase)) m).box 511).overrun = true ∧ said (.mbxTake who0 511) m (.value (0x103000000 - 1)) = true ∧
     ((run (.mbxTimeout 511) { m with tb := 10000 }).box 511).timeout = true) := by decide +kernel

/-- Mailboxes: a bell unmasked, one masked, a mask lifted, a binding. -/
theorem test_bells :
    (let m := boxBench 575 false
     ((run (.mbxDbset who1 575 0x80000002) m).box 575).pend = 1 ∧ said (.mbxDbread who0 575) m (.value 6) = true ∧
     ((run (.mbxDbmaskWrite who0 575 0) m).box 575).pend = 1 ∧ said (.mbxDbset (who2 0) 575 1) m (.denied 2) = true) ∧
    (let m := (boxBench 511 false).setThr 4095 { Thr.reset with state := .idle }
     (m.box 511).rcv.has (m.thr 4095) = true ∧ ((run (.mbxBindWrite who0 511 (flagAt 63 true ||| at_ 40 4095)) m).box 511).tcb = 4095) := by
  decide +kernel

/-- Locks: taken, read when taken, freed, a foreign write, a lock of a slice, an assignment, FORCE. -/
theorem test_locks :
    (let m := run (.lockRead who0 255) Mach.reset
     (Mach.reset.lock 255).opens who0 = true ∧ (m.lock 255).owner = who0.ident ∧
     said (.lockRead who1 255) m (.value (who0.ident ||| flagAt 63 true)) = true ∧
     ((run (.lockWrite who0 255 who0.ident) m).lock 255).owner = 0 ∧ (run (.lockWrite who1 255 0) m).mbx.lockFault = 1 ∧
     ((run (.lockForce who1 255 0) m).lock 255).owner = 0) ∧
    ((Mach.reset.lock 0).opens (who2 7) = false ∧ said (.lockRead (who2 7) 0) Mach.reset (.denied 1) = true ∧
     ((run (.mbxLockcfgWrite who1 0 (flagAt 63 true ||| at_ 48 255)) Mach.reset).lock 0).slice = 255 ∧
     said (.mbxLockcfgWrite (who2 7) 0 0) Mach.reset (.denied 2) = true) := by decide +kernel
/-! ## Supply, temperature, resets, alarms, freeze and ports -/

/-- Reset with a supply state. -/
def withPwr (p : Pwr) : Mach := { Mach.reset with pwr := p }
/-- All four sensors at h °C. -/
def hot (h : Nat) : W32 := BitVec.ofNat 32 (h * 0x01010101)

/-- SupplyAndTemperature: a reset, a fall below each threshold, a recovery, a window that has lasted. -/
theorem test_supply :
    (Mach.reset.pwr.holdOver Mach.reset.tb = false ∧ Mach.reset.fwa.suspSag = false ∧ Mach.reset.fwa.heldCmd = none ∧
     Mach.reset.fwa.heldFuse = [] ∧ Mach.reset.dgs.held = [] ∧ (run (.vinReset 2449) Mach.reset).pwr.noVin = true ∧
     (run (.vinInhibit 2450) Mach.reset).pwr.holdOpen = true ∧ (run (.vinRecover 3300) Mach.reset).pwr.holdOpen = false) ∧
    (let m := run (.vinInhibit 2450) Mach.reset
     (run (.vinRecover 3300) m).pwr.alarmEvt.getLsbD 18 = true ∧
     { m with tb := 1000000 }.pwr.holdOver 1000000 = true ∧
     (run .holdWindowExpire { m with tb := 1000000 }).pwr.expired = 1 ∧ run .holdWindowExpire m = m) := by decide +kernel

/-- SupplyAndTemperature: the bands at their limits with and without what their hysteresis keeps. -/
theorem test_temperature :
    ((run (.thermalBandChange (hot 108)) Mach.reset).pwr.throt = 3 ∧ (run (.thermalBandChange (hot 107)) Mach.reset).pwr.throt = 2 ∧
     (run (.thermalBandChange (hot 105)) (withPwr { Pwr.reset with throt := 3 })).pwr.throt = 3 ∧
     (run (.thermalBandChange (hot 104)) (withPwr { Pwr.reset with throt := 3 })).pwr.throt = 2 ∧
     (run (.thermalBandChange (hot 99)) (withPwr { Pwr.reset with throt := 2 })).pwr.throt = 1 ∧
     (run (.thermalBandChange (hot 91)) (withPwr { Pwr.reset with throt := 1 })).pwr.throt = 0) ∧
    ((run (.winnowBandChange (hot 100)) Mach.reset).wnw.band = 2 ∧ (run (.winnowBandChange (hot 97)) Mach.reset).wnw.band = 1 ∧
     (run (.winnowBandChange (hot 89)) Mach.reset).wnw.band = 0) ∧
    ((run (.overtempHold (hot 112)) Mach.reset).inhibited = true ∧
     (run (.overtempRelease (hot 108)) (withPwr { Pwr.reset with hotHold := true })).pwr.hotHold = false) ∧
    ((run (.pwrVcoreReqWrite who0 3) Mach.reset).pwr.req = 3 ∧ said (.pwrVcoreReqWrite who1 3) Mach.reset (.denied 2) = true) := by decide +kernel

/-- Resets: 120 degrees and below, a rail, nRESET, and what may not boot. -/
theorem test_resets :
    (run (.overtempReset (hot 120)) Mach.reset).pwr.hotReset = true ∧ (run (.overtempReset (hot 119)) Mach.reset) = Mach.reset ∧
    (run (.overtempRelease (hot 100)) (withPwr { Pwr.reset with hotReset := true })).pwr.hotReset = true ∧
    (run (.overtempRelease (hot 99)) (withPwr { Pwr.reset with hotReset := true })).pwr.hotReset = false ∧
    (run (.railReset 7) Mach.reset).pwr.railLast = 8 ∧ (run (.railFault 0) Mach.reset).pwr.railsGood = false ∧
    (run (.nreset true) Mach.reset).resting = true ∧ run (.moduleReset 2699 []) Mach.reset = Mach.reset ∧
    (Mach.reset.booted = false ∧ Mach.reset.hq.cmds = [] ∧ Mach.reset.hq.qps = []) := by decide +kernel

/-- EventsAndAlarms: a waiting thread, a count, a freeze, both halves of a masked alarm, a first alarm, a STOP, the resonator. -/
theorem test_alarms :
    (let m0 := withThr 9 { Thr.reset with state := .waiting, waitKind := .waitwork }
     let m : Mach := { m0 with sch := { m0.sch with events := [(32, { Evt.reset with bound := true, tcb := 9 })] } }
     m.inWaitwork 9 = true ∧ ((m.raise 32).thr 9).wake = .event 32) ∧
    ((Mach.reset.raise 1023).evt 1023).pend = 1 ∧
    (({ Mach.reset with dbg := { Dbg.reset with frozen := true } } : Mach).raise 32).dbg.asserted = [32] ∧
    (Mach.reset.pwr.alarmEvt.getLsbD 31 = false ∧ (Mach.reset.raise 31).pwr.alarmEvt.getLsbD 31 = true) ∧
    (Mach.reset.pwr.firstValid = false ∧ (Mach.reset.alarm 6 5).pwr.stop = true ∧ (Mach.reset.alarm 15 5).pwr.firstCls = 15) ∧
    (run (.alarmResume who0) (Mach.reset.alarm 0 5)).pwr.stop = false ∧ said (.alarmResume who1) Mach.reset (.denied 2) = true ∧
    said (.pwrAlarmEvtClear (who2 0) 1) Mach.reset (.denied 2) = true ∧
    (let m : Mach := { Mach.reset with lnk := { Mach.reset.lnk with state := .active } }
     m.refLost = false ∧ (run .resonatorLoss m).refLost = true) := by decide +kernel

/-- The debug port. -/
def port : Who := { who0 with dbg := true }
/-- A machine that has booted, at level 0, 1 or 2. -/
def booted (lv : Nat) : Mach := { Mach.reset with fwa := { Fwa.reset with bootRec := [1], raise := if lv = 1 then 1 else 0, sealed := decide (lv = 2) } }

/-- FreezeAndHalt: the pin before the boot and after it, the command, the entry's end, a thaw with the pin still low, HALT at both ends, LOWER. -/
theorem test_freeze :
    (run .frzNAssert Mach.reset).dbg.entering = false ∧
    (let m := run .frzNAssert (booted 2)
     m.dbg.entering = true ∧ m.dbg.source = true ∧ (run .freezeComplete m).dbg.frozen = true ∧
     (run (.freezeMonitorReady 95 1) m).dbg.frzNand = [(2, 0x8000000000000000)]) ∧
    (let m := run .freezeComplete (run (.freeze port) (booted 0))
     m.dbg.frozen = true ∧ (run (.thaw true) m).dbg.frozen = true ∧
     (m.dbg.asserted = [] ∧ m.mbx.boxes = [] ∧ m.sch.timers = [] ∧ m.sch.thrs = [] ∧ m.fwa.act = none ∧ m.hq.cmds = []) ∧
     (run (.thaw false) m).dbg.frzCmd = false) ∧
    (let m := { (booted 2) with pwr := { Pwr.reset with inhibit := true } }
     let m1 := run .freezeComplete (run .frzNAssert m)
     m1.pwr.holdOver m1.tb = false ∧ (run (.thaw true) m1).dbg.frozen = false ∧ ((run (.thaw true) m1).evt 994).pend = 1) ∧
    (((run (.halt port 71) (booted 1)).core 71).halted = true ∧ ((run (.debugResume port 71) (run (.halt port 71) (booted 1))).core 71).halted = false) ∧
    said (.freeze port) (booted 2) (.denied 2) = true ∧ said (.debugLower who0) (booted 1) (.denied 2) = true ∧
    (booted 1).fwa.lowreq < 8 ∧ (booted 1).inhibited = false := by decide +kernel

/-- A machine with DBGACC selected. -/
def accBench (m : Mach) : State := { State.reset with m := m, tap := { State.reset.tap with ir := .dbgacc } }
/-- The access that a machine's debug unit holds. -/
def accOf (m : Mach) : Bool × W64 := (m.dbg.accOk, m.dbg.accData)
/-- The data register of an access: a write or a read of an address. -/
def accAt (write : Bool) (a : Nat) (v : Nat) : BitVec 106 := BitVec.ofNat 106 (v + a * 2 ^ 64 + (if write then 2 ^ 104 else 0))

/-- TestPort: levels 0 and 2, a read and a write of the granary, a register, an unaligned address. -/
theorem test_port :
    ((booted 0).dark = false ∧ regionOf spot = .granary ∧ (booted 0).fwa.limp = false ∧ (accAt true spot 7).getLsbD 104 = true ∧
     (accAt false spot 7).getLsbD 104 = false ∧ ((accAt true spot 7).extractLsb' 64 40).toNat = spot ∧
     accOf (nextOf (exec (.dbgaccUpdate (accAt true spot 7)) (accBench (booted 0)))) = (true, 7) ∧ accOf (nextOf (exec (.dbgaccUpdate (accAt false 0x200000000 0)) (accBench (booted 0)))) = (true, 0x4B9600A1) ∧
     accOf (nextOf (exec (.dbgaccUpdate (accAt false (spot + 4) 0)) (accBench (booted 1)))) = (false, 0)) ∧
    (match ((booted 0).readBytes spot 8).2 with | .ok b => b | _ => []) = zeros 8 ∧
    (match exec .dbgacc { State.reset with m := booted 2 } with | .next t => t.tap.dr | _ => 1) = 0 := by decide +kernel

/-- RegisterPorts: each way a write ends, a protection written once, I2C. -/
theorem test_ports :
    said (.registerWrite who0 0x103000000 0) (booted 0) (.busError 1) = true ∧ said (.registerWrite who0 0x200000004 0) (booted 0) (.busError 2) = true ∧
    said (.registerWrite who1 0x200000020 0) (booted 0) (.denied 2) = true ∧
    (let v : W64 := flagAt 63 true ||| at_ 28 0xFFFFFFF
     let m := run (.registerWrite who0 0x200000118 v) (booted 0)
     fld v 62 56 = 0 ∧ tget FwProt.reset (booted 0).sys.fwprot 3 = FwProt.reset ∧ (tget FwProt.reset m.sys.fwprot 3).limit = 0xFFFFFFF ∧
     (tget FwProt.reset m.sys.fwprot 3).locked = true ∧ (run (.registerWrite who0 0x200000118 0) m).sys = m.sys) ∧
    (run (.registerWrite who1 0x200000040 1) (booted 0)).sys.rsvAddr = 0x200000040 ∧
    (run (.i2cRead 0x200000000) Mach.reset).lands.i2cNack = true ∧ (run (.i2cRead 0x200000000) (booted 0)).lands.i2c = 0x4B9600A1 ∧
    (run (.i2cRead 0x200000008) (booted 0)).lands.i2cNack = !i2cList.contains 0x200000008 := by decide +kernel
/-! ## Host commands -/

/-- A command's words: opcode, CID 7, namespace, LBA, blocks, DLEN and the first two parameters. -/
def ent (opc ns lba nblk dlen p0 p1 : Nat) : SqEnt :=
  { words := BitVec.ofNat 512 (opc + ns * 2 ^ 16 + 7 * 2 ^ 48 + lba * 2 ^ 64 + nblk * 2 ^ 128 + dlen * 2 ^ 256 + p0 * 2 ^ 320 + p1 * 2 ^ 384),
    procid := 3 }
/-- An accepted command of an owner. -/
def cmd (owner : Option Nat) (ph : CmdPhase) (e : SqEnt) : Cmd :=
  { qp := 1, ent := e, asn := 0, owner := owner, at_ := 0, resp := 0, notices := 0, noticeUp := false, phase := ph, started := false, drds := [],
    bufs := [], count := 0, verdict := none, lostDwr := false, hints := [], stopReq := none }
/-- A machine with one command outstanding, under tag 5, and slice 2 live: namespace 0 coarse, namespace 1 fine. -/
def hostBench (c : Cmd) : Mach :=
  let m := Mach.reset.setSlice 2 { state := .live, desc := { Desc.reset with nscnt := 2, ns := [{ kind := 1, grains := 4 }, { kind := 2, grains := 4 }],
                                                                             qpfirst := 1, qpcnt := 3, bufq := 64, ksfirst := 64, kscnt := 8 } }
  { m with hq := { m.hq with ready := true, cmds := [(5, c)] }
           slc := { m.slc with binds := [(0, { valid := true, oper := false, slice := 2, procid := 3 })] }
           grn := { m.grn with slq := [(2, { Slq.reset with quota := 64 })] } }
/-- The same with no command outstanding and a submission queue of queue pair 1. -/
def queueBench (q : List SqEnt) : Mach :=
  let m := hostBench (cmd none .waiting (ent 1 0 0 0 0 0 0))
  { m with hq := { m.hq with cmds := [], qps := [(1, { Qp.reset with enable := true, slice := 2, depth := 1, sq := q, outst := q.length })] } }
/-- Statuses of the completions posted. -/
def codes (m : Mach) : List (Nat × Nat) := m.hq.cqes.map fun x => (x.status, x.result)
/-- How a command of the bench ends. -/
def ends (i : Instr) (m : Mach) (st rs : Nat) : Bool := (run i m).hq.cmds.isEmpty && codes (run i m) == [(st, rs)]

/-- `endedOpen` as a test. -/
def endsOpen (i : Instr) (m : Mach) (st : Nat) : Bool := (run i m).hq.cmds.isEmpty && (codes (run i m)).map (·.1) == [st]

/-- `sole` as a test. -/
def alone (m : Mach) (tag : Nat) (c : Cmd) (opc : Nat) : Bool :=
  decide (m.pwr.mism = [] ∧ m.hq.cmds = [(tag, c)] ∧ m.hq.aborts = [] ∧ m.hq.entry = none ∧ m.fwa.act = none ∧ c.ent.opc = opc) &&
  decide ((c.phase = .waiting ∨ c.phase = .dataReady ∨ c.phase = .running) ∧ m.unplaced c = false ∧ c.verdict = none ∧ c.stopReq = none ∧
    c.lostDwr = false)
theorem alone_sole (m : Mach) (tag : Nat) (c : Cmd) (opc : Nat) (h : alone m tag c opc = true) : m.sole tag c opc := by
  simp only [alone, Bool.and_eq_true, decide_eq_true_eq, and_assoc] at h
  exact h

/-- HostIntake: a held command in each of its four cases, a fetched head answered, waiting and calling data, data complete, a notice at its time. -/
theorem test_intake :
    (let m := { (queueBench []) with hq := { (queueBench []).hq with held := [{ qp := 1, ent := ent 4 0 0 0 0 0 0 }] } }
     m.pwr.mism = [] ∧ (run .heldCmdPlace m).hq.held = [] ∧ ((run .heldCmdPlace m).qp 1).outst = 1 ∧
     (run .heldCmdPlace { m with hq := { m.hq with ready := false } }).hq = { m.hq with ready := false }) ∧
    (let m := queueBench [ent 4 0 0 0 0 0 0, ent 4 0 0 0 0 0 0]
     let h := { m with hq := { m.hq with held := [{ qp := 1, ent := ent 4 0 0 0 0 0 0 }] } }
     (h.qp 1).size = 2 ∧ run .heldCmdPlace h = h) ∧
    (let m := queueBench []
     let h := { m with hq := { m.hq with held := [{ qp := 511, ent := ent 4 0 0 0 0 0 0 }] } }
     h.rsvdUsed < 64 ∧ codes (run .heldCmdPlace h) = [(0x0101, 64)]) ∧
    (let m := queueBench [ent 0xF 0 0 0 4 0 0]
     m.tagsInUse.length < 65536 ∧ (m.checkCmd 1 (some 2) (ent 0xF 0 0 0 4 0 0)).isSome = true ∧ (ent 0xF 0 0 0 4 0 0).reserve = 0) ∧
    ((queueBench []).checkCmd 1 (some 2) (ent 4 0 0 0 0 0 0) = none ∧ ranged (ent 4 0 0 0 0 0 0).opc = false ∧
     (ent 4 0 0 0 0 0 0).dataIn = false) ∧
    (let e := ent 3 1 0 1 4096 0 0
     let m := queueBench [e]
     e.reserve = 1 ∧ (match m.allocMany 1 0x4001 (some 2) 1 with | some (_, m1) => (m1.checkCmd 1 (some 2) e).isNone | none => false) = true ∧
     (m.ledger 3).free ≠ 0 ∧ m.hq.orphans = [] ∧ tget 0 m.map.nslim (nsKey 2 1) = 0) ∧
    (let c := { (cmd (some 2) .dataIn (ent 3 1 0 1 4096 0 0)) with drds := [{ rtag := 1, off := 0, len := 4096, got := 4096, fault := false, done := true }] }
     c.irregular = none ∧ ((run (.dataInComplete 5) (hostBench c)).cmd? 5).map (·.phase) = some .dataReady) ∧
    (let c := { (cmd (some 2) .dataIn (ent 3 1 0 1 4096 0 0)) with drds := [{ rtag := 1, off := 0, len := 4096, got := 4095, fault := false, done := true }] }
     c.irregular = some (0x0102, 4095, false) ∧ ends (.dataInComplete 5) (hostBench c) 0x0102 4095 = true) ∧
    (let m := hostBench (cmd (some 2) .waiting (ent 4 0 0 0 0 0 0))
     run (.noticePost 5) { m with tb := 349999 } = { m with tb := 349999 } ∧ codes (run (.noticePost 5) { m with tb := 350000 }) = [(0x0600, 1)]) := by
  decide +kernel

/-- HostQueueControl: a reset of one queue pair and of all, its end, READY, an enable that takes a buffer and one that cannot, a disable. -/
theorem test_queue_control :
    ((queueBench [ent 4 0 0 0 0 0 0]).hq.cmds = [] ∧ (queueBench []).hq.aborts = [] ∧
     (let e := run (.resetQp who1 1) (queueBench [])
      e.hq.inReset = true ∧ (e.qp 1).inReset = true ∧ ((run .queueResetEnd e).qp 1).inReset = false ∧ ((run .queueResetEnd e).evt 66).pend = 1)) ∧
    ((run (.resetAll who0) (queueBench [])).hq.inReset = true ∧ run .queueResetEnd (queueBench []) = queueBench []) ∧
    said (.resetQp (who2 0) 511) Mach.reset (.denied 2) = true ∧ said (.hqReady who0) Mach.reset .done = true ∧
    (run (.hqReady who0) Mach.reset).hq.ready = true ∧ (run (.hqReady who1) Mach.reset).sys.rsvCount = 1 ∧
    (Mach.reset.allocMany 0 0x4000 none (qpBufs 0 1)).isSome = true ∧
    (let m := Mach.reset.setSlice 2 { state := .live, desc := { Desc.reset with qpfirst := 1, qpcnt := 3 } }
     (m.slice 2).state = .live ∧ (m.allocMany 0 0x4003 (some 2) (qpBufs 3 1)).isNone = true ∧
     ((run (.qpCfgWrite who0 3 (flagAt 63 true ||| at_ 48 2 ||| at_ 0 1)) m).qp 3).err = 1) ∧
    ((run (.qpCfgWrite who0 1 (at_ 48 2 ||| at_ 0 1)) (queueBench [])).qp 1).enable = false ∧
    said (.qpCfgWrite who1 0 0) Mach.reset (.denied 2) = true := by decide +kernel

/-- HostService: IDENTIFY and GET-LOG as they stand, ABORT of none and of a waiting entry, SET-POWER to the same, a lower and a higher state, an entry. -/
theorem test_service :
    (let c := cmd none .waiting (ent 1 0 0 0 4096 0 0)
     alone (hostBench c) 5 c 1 = true ∧ ends (.identify 5) (hostBench c) 0 0 = true) ∧
    (let c := cmd none .waiting (ent 0xB 0 0 0 64 1 0)
     alone (hostBench c) 5 c 0xB = true) ∧
    (let c := cmd (some 2) .waiting (ent 0xF 0 0 0 0 (7 + 4 * 2 ^ 16) 0)
     alone (hostBench c) 5 c 0xF = true ∧ (hostBench c).abortMay (some 2) 4 = false ∧ endsOpen (.abort 5) (hostBench c) 0x0105 = true) ∧
    (let c := cmd none .waiting (ent 0xF 0 0 0 0 (7 + 2 ^ 16) 0)
     let m := { (hostBench c) with hq := { (hostBench c).hq with qps := (queueBench [ent 4 0 0 0 0 0 0]).hq.qps } }
     (hostBench c).abortMay none 1 = true ∧ ends (.abort 5) (hostBench c) 0 0 = true ∧ (m.qp 1).sq = [ent 4 0 0 0 0 0 0]) ∧
    (let c := cmd none .waiting (ent 0xA 0 0 0 0 4 0)
     alone (hostBench c) 5 c 0xA = true ∧ ((run (.setPower 5) (hostBench c)).hq.entry).isSome = true ∧ ends (.setPower 5) (hostBench { c with count := 4 }) 0 4 = true) ∧
    (let e : PEntry := { tag := 5, target := 2, at_ := 0, quiet := some 0, closed := false }
     let m := { (hostBench (cmd none .running (ent 0xA 0 0 0 0 2 0))) with hq := { (hostBench (cmd none .running (ent 0xA 0 0 0 0 2 0))).hq with entry := some e } }
     e.shut 99999 = false ∧ e.shut 100000 = true ∧
     ((run .powerQuietWindowClose { m with tb := 100000 }).hq.entry).map (·.closed) = some true ∧
     endsOpen .powerEntryAbandon { m with tb := 10000000, hq := { m.hq with entry := some { e with quiet := none } } } 0x0500 = true ∧
     m.prepared 2 = true ∧ ends .powerStatePrepared { m with hq := { m.hq with entry := some { e with closed := true } } } 0 2 = true) := by
  decide +kernel

/-- A landing set with room for an image, for each quadrant. -/
def landSets (fine : Bool) : Tab MSet :=
  (List.range 4).map fun q => (q, { members := (List.range 32).map fun i => (i, q), state := .open_, cls := 0, fine := fine, landing := true, quad := q,
                                    stripe := 0, pos := 0, off := 0, lastAt := 0, victim := false, toErase := [] })
/-- Dies of a profile with 8 word lines a block. -/
def someDies : Tab Die := (List.range 32).map fun d => (d, { Die.reset with state := .inService, blocks := 16, wls := 64, kind := 1 })

/-- A command of a range as the only one, with its overlap entry. -/
def rangeBench (c : Cmd) (k : OvlKind) : Mach :=
  let m := hostBench c
  let o : Ovl := { tag := 5, asn := 0, kind := k, slice := 2, nsid := c.ent.nsid, lo := c.ent.lba, hi := c.ent.lba + c.ent.nblk }
  { m with hq := { m.hq with ovls := [o] } }
/-- A READ of one fine block, a TRIM of grain 1, and a WRITE of fine block 9 with its data. -/
def readCmd : Cmd := cmd (some 2) .waiting (ent 2 1 0 1 4096 0 0)
def trimCmd : Cmd := cmd (some 2) .waiting (ent 5 0 256 256 0 0 0)
def writeCmd : Cmd := { cmd (some 2) .dataReady (ent 3 1 9 1 4096 0 0) with bufs := [600] }
/-- The media keys of namespace 1 of slice 2. -/
def mediaPair : Tab Key :=
  [(67, { Key.reset with value := 3, valid := true, usage := .xts1, slown := true, slice := 2 }),
   (68, { Key.reset with value := 4, valid := true, usage := .xts2, slown := true, slice := 2 })]
/-- The WRITE with a place to land, and a byte of its data. -/
def writeBench : Mach :=
  let m := rangeBench writeCmd .write
  { m with map := { Map.reset with sets := landSets true }, fch := { Fch.reset with dies := someDies },
           mem := { cells := [(bufAddr 600, 1)], chk := [], tags := [] }, dgs := { Dgs.reset with keys := mediaPair } }
/-- The READ of a block that stands on the media, with its page read. -/
def pageBench : Mach :=
  let m := rangeBench readCmd .guard
  { m with map := { Map.reset with sets := landSets true, fine := [(fineKey 2 1 0, fineWord 1 { die := 0, block := 0, page := 0, off := 0 })] }
           fch := { Fch.reset with dies := someDies, pages := [(pageKey 0 0 0, { data := zeros 16384, slc := true, verified := true })]
                                   got := [{ tag := 5, page := pageKey 0 0 0, data := none }] }
           dgs := { Dgs.reset with keys := mediaPair } }

/-- HostMedia: a READ of a fine block that nothing has written, and FLUSH with and without a record to wait for. -/
theorem test_read_flush :
    (alone (rangeBench readCmd .guard) 5 readCmd 2 = true ∧ (rangeBench readCmd .guard).isFine 2 1 = true ∧
     (rangeBench readCmd .guard).loaded true (mapKey true 2 1 0) = true ∧ (rangeBench readCmd .guard).badEntry true (mapKey true 2 1 0) = false ∧
     (rangeBench readCmd .guard).pagesFor 0 2 1 0 = [] ∧
     ((rangeBench readCmd .guard).contentAt ((rangeBench readCmd .guard).pageFor 5) 0 2 1 0).isSome = true ∧ readCmd.grains true = (0, 1) ∧
     (run (.read 5 (some 1)) (rangeBench readCmd .guard)).hq.cmds = []) ∧
    (let c := cmd (some 2) .waiting (ent 4 0 0 0 0 0 0)
     alone (hostBench c) 5 c 4 = true ∧ ends (.flush 5) (hostBench c) 0 0 = true ∧
     ((run (.flush 5) { (hostBench c) with map := { Map.reset with jsn := 1 } }).cmd? 5).map (·.verdict) = some (some (0, 0))) := by decide +kernel
/-- HostMedia: a TRIM of a grain. -/
theorem test_trim :
    alone (rangeBench trimCmd .write) 5 trimCmd 5 = true ∧ (rangeBench trimCmd .write).isFine 2 0 = false ∧
    (rangeBench trimCmd .write).badEntry false (coarseKey 2 0 1) = false ∧
    (run (.trim 5 none) (rangeBench trimCmd .write)).entry false (coarseKey 2 0 1) = at_ 61 3 := by decide +kernel
/-- HostMedia: a WRITE of a fine block, with a place for it in every quadrant. -/
theorem test_write :
    alone writeBench 5 writeCmd 3 = true ∧
    ((writeBench.bufData (writeCmd.bufs.take 1)).2.map fun d => (d.length, d.all (· == 0))) = some (4096, false) ∧
    (writeBench.bufData (writeCmd.bufs.take 1)).1.mem = writeBench.mem ∧
    writeBench.loaded true (mapKey true 2 1 9) = true ∧ writeBench.badEntry true (mapKey true 2 1 9) = false ∧
    (∀ q ∈ [0, 1, 2, 3], ((writeBench.openSet true true q 0).map fun e => decide (4096 + 98304 ≤ writeBench.roomIn e.2)) = some true) := by
  decide +kernel
/-- HostMedia: a cipher pair's check that fails on a READ and on a WRITE, and a media key that has been erased. -/
theorem test_unit_fault :
    (pageBench.pagesFor 0 2 1 0 = [pageKey 0 0 0] ∧ alone pageBench 5 readCmd 2 = true ∧ pageBench.loaded true (mapKey true 2 1 0) = true ∧
     pageBench.badEntry true (mapKey true 2 1 0) = false ∧ (pageBench.page? (pageKey 0 0 0)).isSome = true ∧ (pageBench.mediaPass 2 1 none).2 = 0 ∧
     endsOpen (.read 5 (some 1)) pageBench 0x0407 = true ∧ ((run (.read 5 (some 1)) pageBench).evt 585).pend = 1 ∧
     endsOpen (.read 5 none) { pageBench with dgs := Dgs.reset } 0x0105 = true) ∧
    (writeBench.mediaPass 2 1 none).2 = 0 ∧ endsOpen (.write 5 (some (0, .cipher 1))) writeBench 0x0407 = true ∧
    ((run (.write 5 (some (0, .cipher 1))) writeBench).evt 585).pend = 1 ∧
    (let c := { cmd (some 2) .dataReady (ent 3 0 256 256 0x100000 0 0) with bufs := (List.range 256).map (600 + ·) }
     c.bufs.length = 256 ∧ (rangeBench c .write).isFine 2 0 = false ∧ UnitFault.status (.groat 3) = 0x0401) := by decide +kernel
/-! ## Loads of programs, keys and firmware -/

/-- An image of four zero bytes for a ring, sealed with a key. -/
def sealedImage (ring : Byte) (key : BitVec 256) : List Byte :=
  let h := leBytes 4 0x45414B48 ++ leBytes 2 1 ++ [ring, 0] ++ leBytes 4 4 ++ zeros 20
  h ++ Alg.hmac256.mac key (h ++ zeros 4) ++ zeros 4
/-- LOAD-PROGRAM of slice 2 with its bytes in hand. -/
def loadCmd (img : List Byte) : Cmd := { cmd (some 2) .dataReady (ent 8 0 0 0 68 0 0) with hints := img }
/-- The bench with a unit of program memory for slice 2 and its seal key. -/
def loadBench (c : Cmd) : Mach :=
  let m := hostBench c
  let m1 := m.setSlice 2 { state := .live, desc := { (m.slice 2).desc with pmcnt := 1 } }
  m1.setKey 64 { Key.reset with value := 11, valid := true, usage := .seal_ }

/-- HostLoads: an image with a bad field, one with another seal and one with its own; UNLOAD of none, of one in use and of one free. -/
theorem test_programs :
    (let c := loadCmd (zeros 68)
     alone (loadBench c) 5 c 8 = true ∧ c.ent.unload = false ∧ (loadBench c).crippled 2 = false ∧ (loadBench c).progFree (some 2) = some 0 ∧
     ((loadBench c).progSpace (some 2) 1).isSome = true ∧ imageBad (zeros 68) 2 4 = some 0 ∧ ends (.loadProgram 5) (loadBench c) 0x0101 0 = true) ∧
    (imageBad (sealedImage 2 12) 2 4 = none ∧ ((loadBench (loadCmd [])).key 64).cplOk = true ∧ sealGood 11 (sealedImage 2 12) = false ∧
     sealGood 11 (sealedImage 2 11) = true ∧ ends (.loadProgram 5) (loadBench (loadCmd (sealedImage 2 11))) 0 0 = true) ∧
    (let c := cmd (some 2) .waiting (ent 8 0 0 0 0 (2 ^ 16 + 63) 0)
     let g : Prog := { ldc := false, span := 1, base := 0x1000000000, ring := .r2, entry := 0, bodyLen := 4 }
     let m := { hostBench c with slc := { (hostBench c).slc with progs := [(191, g)] } }
     alone m 5 c 8 = true ∧ c.ent.unload = true ∧ ends (.unloadProgram 5) (hostBench c) 0x0101 40 = true ∧ m.prog? (some 2) 63 = some g ∧
     m.imageUsed g = false ∧ ends (.unloadProgram 5) m 0 63 = true ∧
     (m.setThr 9 { worker with state := .ready, entry := 0x400000010 }).imageUsed g = true) := by decide +kernel

/-- A key of 7 wrapped under a key of 9. -/
def wrapped : List Byte := leBytes 40 1612989564428296105496848167754684504873402818912142049472472019502801010485087251458833990468984
/-- KEY-LOAD of the operator for slot 2, its data in buffer 600. -/
def keyCmd : Cmd := { cmd none .dataReady (ent 0xC 0 0 0 40 2 0) with bufs := [600] }
def keyBench (d : List Byte) : Mach :=
  let m := (hostBench keyCmd).setKey 3 { Key.reset with value := 9, valid := true, usage := .wrap }
  { m with mem := { cells := (List.range 40).map fun i => (bufAddr 600 + i, d.getD i 0), chk := [], tags := [] } }

/-- HostLoads: KEY-LOAD with no target, of a good and a bad wrapping; KEY_ERASE and KEY_RELOAD; the rings that may not. -/
theorem test_keys :
    (alone (keyBench wrapped) 5 keyCmd 0xC = true ∧ (keyBench wrapped).keyTarget none 4 = none ∧
     ((keyBench wrapped).keyTarget none 2).map (·.1) = some 9 ∧
     (((keyBench wrapped).bufData [600]).2.map fun d => decide (d.take 40 = wrapped)) = some true ∧ kwUnwrap 9 wrapped = some 7 ∧
     kwUnwrap 8 wrapped = none ∧ (keyBench wrapped).inhibited = false) ∧
    ((run (.keyErase who0 2047) ((keyBench []).setKey 2047 { Key.reset with valid := true })).key 2047).valid = false ∧
    (let m := { Mach.reset with dgs := { Dgs.reset with store := [(2, { Key.reset with value := 6, valid := true })] } }
     ((run (.keyReload who0 2) m).key 2).value = 6) ∧
    said (.keyErase who1 2) Mach.reset (.denied 2) = true ∧ said (.fwaLimp who1) Mach.reset (.denied 2) = true := by decide +kernel

/-- FIRMWARE-STAGE of 256 bytes, at an offset. -/
def stageCmd (off : Nat) : Cmd := { cmd none .dataReady (ent 0xD 0 0 0 256 off 0) with bufs := [600] }
/-- FIRMWARE-ACTIVATE. -/
def activateCmd : Cmd := cmd none .waiting (ent 0xE 0 0 0 0 0 0)
/-- Bank 1 holds an image that slot 1's key seals, and is staged; an activation is in a phase, or none. -/
def bankBench (a : Option Act) : Mach :=
  let m := (hostBench activateCmd).setKey 1 { Key.reset with value := 11, valid := true, usage := .seal_ }
  { m with mem := { cells := (List.range 68).map fun i => (bankBase 1 + i, (sealedImage 0 11).getD i 0), chk := [], tags := [] },
           fwa := { m.fwa with staging := some { sectors := [0], units := [0], image := 0 }, act := a } }

/-- HostLoads: a staging away from offset 0 that nothing began and one from offset 0; an activation of a bad and a good bank, its drain, its trial. -/
theorem test_firmware :
    (alone (hostBench (stageCmd 4096)) 5 (stageCmd 4096) 0xD = true ∧ ends (.firmwareStage 5 none) (hostBench (stageCmd 4096)) 0x0101 40 = true ∧
     ((hostBench (stageCmd 0)).bufData [600]).2.isSome = true ∧ ((hostBench (stageCmd 0)).bufData [600]).1.mem = (hostBench (stageCmd 0)).mem ∧
     ends (.firmwareStage 5 none) (hostBench (stageCmd 0)) 0 0 = true ∧
     0 < (stageCmd 0).ent.dlen / 256) ∧
    (alone (hostBench activateCmd) 5 activateCmd 0xE = true ∧ (hostBench activateCmd).stagedGood = false ∧
     ends (.firmwareActivate 5) (hostBench activateCmd) 0x0406 1 = true) ∧
    ((bankBench none).stagedGood = true ∧ ((run (.firmwareActivate 5) (bankBench none)).fwa.act.map (·.phase)) = some .drain) ∧
    (let a : Act := { tag := 5, phase := .drain, bank := 1, fallback := 0 }
     let m := { bankBench (some a) with hq := { (bankBench none).hq with cmds := [(5, { activateCmd with started := true, phase := .running })] } }
     m.map.jsn ≤ m.map.jsnDone ∧ m.hq.cmds.length = 1 ∧ m.inhibited = false) ∧
    (let a : Act := { tag := 5, phase := .trial 0, bank := 1, fallback := 0 }
     let m := bankBench (some a)
     run .activationWindowExpire { m with tb := 1999999 } = { m with tb := 1999999 } ∧
     ends .activationWindowExpire { m with tb := 2000000 } 0x0406 3 = true ∧
     ends (.confirm who0) { m with fwa := { m.fwa with trial := true } } 0 0 = true) ∧
    (run (.fwaLimp who0) (hostBench activateCmd)).fwa.limpCause = 5 := by decide +kernel
/-! ## The link -/

/-- The bits of a flit: payload, header word, and its CRC changed by d. -/
def flit (pay : List Byte) (hd d : Nat) : BitVec 1024 :=
  let b := (pay ++ zeros (120 - pay.length)) ++ leBytes 4 hd
  BitVec.ofNat 1024 (leNat (b ++ leBytes 4 ((crc32c b + d) % 2 ^ 32)))
/-- An active link of eight lanes. -/
def link : Lnk := { Lnk.reset with state := .active, width := 8 }
def linkBench (k : Lnk) : Mach := { Mach.reset with lnk := k }
/-- A flit that waits to be acknowledged. -/
def sentFlit (n : Nat) : TxFlit := { seq := n, ftype := 0, cinc := 0, ccls := 0, ack := 4095, payload := 0, cqs := [], dws := [], sent := 0 }

/-- LinkReceives: a bad CRC, a HOLD, an unknown type, a NULL with credits, a CMD packet, no credit, ahead, behind; the NAK and replay times. -/
theorem test_link_receives :
    let m := linkBench link
    (run (.flitReceive (flit [] 0 1)) m).lnk.errCrc = 1 ∧ (run (.flitReceive (flit [] 0 1)) (linkBench Lnk.reset)).lnk = Lnk.reset ∧
    (run (.flitReceive (flit [] 2 0)) m).lnk.rxExp = 0 ∧ (run (.flitReceive (flit [] 3 0)) m).lnk.errUnk = 1 ∧
    ((run (.flitReceive (flit [] (2 ^ 27 + 5 * 2 ^ 29) 0)) m).lnk.rxExp = 1 ∧
     tget 0 (run (.flitReceive (flit [] (2 ^ 27 + 5 * 2 ^ 29) 0)) m).lnk.txCrd 1 = 5) ∧
    (let l := leBytes 8 (64 * 2 ^ 48 + 3 * 2 ^ 8 + 1) ++ leBytes 8 511 ++ leBytes 64 7 ++ zeros 40
     let n := m.setLedger 10 { m.ledger 10 with free := 1 }
     (n.ledger 10).free ≠ 0 ∧ (run (.flitReceive (flit l 4 0)) n).hq.held = [{ qp := 511, ent := { words := 7, procid := 3 } }]) ∧
    (let e := m.setLedger 13 { m.ledger 13 with free := 0 }
     (run (.flitReceive (flit [] 7 0)) e).lnk.errNocred = 1) ∧
    (seqBefore 0 2047 = true ∧ (run (.flitReceive (flit [] (2047 * 8) 0)) m).lnk.nakAt = some 0 ∧ seqBefore 0 2048 = false ∧
     (run (.flitReceive (flit [] (2048 * 8) 0)) m).lnk.nakAt = none) ∧
    (let n := linkBench { link with nakAt := some 0 }
     run .nakWindowExpire { n with tb := 999 } = { n with tb := 999 } ∧ (run .nakWindowExpire { n with tb := 1000 }).lnk.nakAt = none) ∧
    (let n := linkBench { link with replay := [sentFlit 0] }
     (run .replayTimeout { n with tb := 999 }).lnk.resend = 0 ∧ (run .replayTimeout { n with tb := 1000 }).lnk.resend = 1 ∧
     (run .replayTimeout { n with tb := 1000, lnk := { n.lnk with repeats := 3 } }).lnk.state = .recovery) := by decide +kernel

/-- LinkTransmits: a flit again, HOLD at 512, link control, a NULL, a DATA flit of a class, a SKIP. -/
theorem test_link_transmits :
    (let m := linkBench { link with replay := [sentFlit 0, sentFlit 1], resend := 2 }
     (run (.flitTransmit 3) m).lnk.resend = 1 ∧ ((run (.flitTransmit 3) m).lnk.wire.map (·.seq)) = some 0) ∧
    (let m := linkBench { link with replay := List.replicate 512 (sentFlit 0) }
     ((run (.flitTransmit 0) m).lnk.wire.map (·.ftype)) = some 2) ∧
    (let m := linkBench { link with lctl := List.replicate 16 5 }
     (run (.flitTransmit 0) m).lnk.lctl = [5] ∧ ((run (.flitTransmit 0) m).lnk.wire.map (·.ftype)) = some 1) ∧
    (((run (.flitTransmit 0) (linkBench link)).lnk.wire.map (·.ftype)) = some 0 ∧ run (.flitTransmit 0) Mach.reset = Mach.reset) ∧
    (let p : Pkt := { ptype := 3, len := 8, tag := 0, procid := 0, word1 := 0, data := zeros 8, cqe := none, asn := none }
     let m := linkBench { link with out := [(2, [p])], txCrd := [(2, 1)] }
     (packFlit 120 [p] 0).cqs = [] ∧ ((run (.flitTransmit 2) m).lnk.wire.map (·.ftype)) = some 6 ∧ tget 0 (run (.flitTransmit 2) m).lnk.txCrd 2 = 0) ∧
    (let m := (linkBench link).setLane 7 { Lane.reset with sinceSkip := 4096 }
     ((run (.skipSend 7) m).lane 7).skips = 1 ∧ run (.skipSend 6) m = m) := by decide +kernel

/-- LinkTrains: each step of training, a lane that fails, one below and one at 64 errors, LNK_CTL, and the 300 ms. -/
theorem test_link_trains :
    (run (.ts1Detect 7) Mach.reset).lnk.state = .poll ∧ run (.ts1Detect 7) (linkBench link) = linkBench link ∧
    (let m := linkBench { Lnk.reset with state := .poll }
     (run (.lanesLocked 0xF0) m).lnk.state = .config ∧ ((run (.lanesLocked 0xF0) m).lane 7).locked = true ∧ run (.lanesLocked 0) m = m ∧
     run (.pollTimeout 0) { m with tb := 3999999 } = { m with tb := 3999999 } ∧ (run (.pollTimeout 0) { m with tb := 4000000 }).lnk.state = .detect) ∧
    (let m := (run (.lanesLocked 0xF0) (linkBench { Lnk.reset with state := .poll }))
     let n := { m with lnk := { m.lnk with newWhy := 0 } }
     (run (.configComplete 0x0F 0 0 false 0) n).lnk.state = .detect ∧ (run (.configComplete 0x30 7 0 false 0) n).lnk.width = 2 ∧
     (run (.configComplete 0xFF 0 (at_ 48 9) true 0) m).lnk.first = 4 ∧ tget 0 (run (.configComplete 0xFF 0 (at_ 48 9) true 0) m).lnk.txCrd 3 = 9) ∧
    (let m := linkBench link
     ((run (.laneBlockLockFail 3) (linkBench { link with state := .recovery })).lane 3).bad = true ∧
     (run (.linkBlockLockLoss 0) m).lnk.state = .recovery ∧ ((run (.laneErrorWindow 0 63) m).lane 0).errN = 63 ∧
     (run (.laneErrorWindow 0 64) m).lnk.state = .recovery ∧ (run (.retrain who0) m).lnk.state = .recovery ∧
     (run (.widen who0) m).lnk.state = .recovery ∧ said (.widen who1) m (.denied 2) = true) ∧
    ((run .linkActiveTimeout { Mach.reset with tb := 29999999 }).lnk.ev46 = false ∧ (run .linkActiveTimeout { Mach.reset with tb := 30000000 }).lnk.ev46 = true) := by
  decide +kernel

/-- LinkLowPower: a link ready to idle and one that is not, a refusal at its time, IDLE-ENTER on all lanes and on none, both ends of idle, HOLD. -/
theorem test_link_low_power :
    (let m := { (linkBench link) with hq := { Hq.reset with pstate := 2 } }
     m.pmReady = true ∧ (run .pmEnter m).lnk.pm = .asked ∧ run .pmEnter (linkBench link) = linkBench link ∧
     (let r := { m with lnk := { link with pm := .refused 0 } }
      (run .pmRefuseRetry { r with tb := 99999 }).lnk.pm = .refused 0 ∧ (run .pmRefuseRetry { r with tb := 100000 }).lnk.pm = .asked)) ∧
    (let m := linkBench { link with pm := .idle 0 }
     (run (.idleEnterReceive 0xFF) m).lnk.state = .lowpower ∧ run (.idleEnterReceive 0) m = m ∧
     (run .lowpowerEntryTimeout { m with tb := 999 }).lnk.state = .active ∧ (run .lowpowerEntryTimeout { m with tb := 1000 }).lnk.state = .recovery) ∧
    ((run (.electricalIdleExit true) (linkBench { link with state := .lowpower })).lnk.state = .recovery ∧
     (run (.electricalIdleExit false) (linkBench { link with state := .lowpower })).lnk.state = .recovery ∧
     run (.electricalIdleExit true) (linkBench link) = linkBench link) ∧
    (let m := linkBench { link with state := .hold }
     (run .holdWindowTimeout { m with tb := 99999999 }).lnk.state = .hold ∧ (run .holdWindowTimeout { m with tb := 100000000 }).lnk.state = .detect) := by
  decide +kernel
/-! ## Slices and scans -/

/-- A descriptor of one coarse namespace, queue pair 511 and key slots 64 to 66, with field bytes changed. -/
def descBytes (ch : List (Nat × Byte)) : List Byte :=
  let b : List (Nat × Byte) := ch ++ [(0, 1), (9, 1), (0xA, 0xFF), (0xB, 1), (0xC, 1), (0x1A, 64), (0x1C, 3), (0x1E, 1), (0x40, 4), (0x47, 1)]
  (List.range 192).map fun i => ((b.find? fun x => x.1 == i).map (·.2)).getD 0
/-- Memory that holds bytes at the spot. -/
def atSpot (l : List Byte) : Mem := { cells := ((List.range l.length).map fun i => (spot + i, l.getD i 0)).filter fun x => x.2 != 0, chk := [], tags := [] }
/-- A machine with slice 255 in a state, its command in progress or not. -/
def sliceBench (st : SliceState) (busy : Bool) (op : Nat) : Mach :=
  let m := Mach.reset.setSlice 255 { state := st, desc := { Desc.reset with qpfirst := 1, qpcnt := 1 } }
  { m with slc := { m.slc with busy := busy, cmdSlice := 255, cmdOp := op } }

/-- SliceLife: CREATE with each result, its end, DESTROY with each, its end, one while another runs, a binding. -/
theorem test_slices :
    (let m := sliceBench .live false 0
     (run (.create who1 255 0) m).slc.cmdRes = 1 ∧ (run (.create who1 254 8) m).slc.cmdRes = 7 ∧ said (.create (who2 0) 0 0) m (.denied 2) = true ∧
     inStore 0x200000000 = false) ∧
    (let m := { Mach.reset with mem := atSpot (descBytes []) }
     spot % 16 = 0 ∧ inStore spot = true ∧ regionOf (spot + 191) = regionOf spot ∧ m.descBad (descBytes []) = none ∧ m.rangeClash (descOf (descBytes [])) = none ∧
     (∀ j ∈ List.range 8, m.poolHeld j + (descOf (descBytes [])).takes j ≤ m.poolTotal j) ∧
     ((run (.create who0 0 (BitVec.ofNat 40 spot)) m).slice 0).state = .creating) ∧
    (let m := { Mach.reset with mem := atSpot (descBytes [(8, 32)]) }
     (run (.create who0 0 (BitVec.ofNat 40 spot)) m).slc.cmdOff = 8) ∧
    (let m := ({ Mach.reset with mem := atSpot (descBytes [(0x1F, 4), (0x1E, 0)]) }).setSlice 1 { state := .live, desc := { Desc.reset with toksh := 1 } }
     (run (.create who0 0 (BitVec.ofNat 40 spot)) m).slc.cmdRes = 3 ∧ (run (.create who0 0 (BitVec.ofNat 40 spot)) m).slc.cmdPool = 7) ∧
    ((sliceBench .creating true 1).mediaHeld = false ∧ ((run .createComplete (sliceBench .creating true 1)).slice 255).state = .live ∧
     run .createComplete (sliceBench .live true 1) = sliceBench .live true 1) ∧
    ((run (.destroy who0 254) (sliceBench .live false 0)).slc.cmdRes = 1 ∧ ((sliceBench .live false 0).qp 1).enable = false ∧
     ((run (.destroy who0 255) (sliceBench .live false 0)).slice 255).state = .destroying ∧
     (run (.destroy who0 255) { (sliceBench .live false 0) with grn := { Grn.reset with tcbOf := [(255, 1)] } }).slc.cmdRes = 5 ∧
     (run (.create who0 0 0) (sliceBench .live true 1)).sys.rsvCount = 1) ∧
    (((sliceBench .destroying true 2).evt 1003).assigned = false ∧
     ((run .destroyComplete (sliceBench .destroying true 2)).slice 255).state = .free ∧
     run .destroyComplete (sliceBench .live true 1) = sliceBench .live true 1) ∧
    ((run (.slcBindWrite who1 4095 (flagAt 63 true ||| at_ 48 255 ||| at_ 0 0xFFFFF)) (sliceBench .live false 0)).slc.binds.length = 1 ∧
     (run (.slcBindWrite who1 4095 (flagAt 63 true ||| at_ 48 254 ||| at_ 0 0)) (sliceBench .live false 0)).sys.rsvCount = 1) := by decide +kernel

/-- The header of a filter image at program memory, for RUN: 1 output buffer, INSN_MAX 1. -/
def filterBytes : List Byte := leBytes 4 0x4E414353 ++ [1, 0, 0, 0, 0, 0, 0, 1, 0, 0, 0, 0] ++ leBytes 4 1 ++ leBytes 4 64 ++ zeros 40
/-- A program of the operator whose image carries the profile. -/
def filterProg : Prog := { ldc := false, span := 1, base := 0x1000000000, ring := .r1, entry := 64, bodyLen := 128 }
/-- A RUN of the operator, and a machine in which it may begin. -/
def runCmd : Cmd := cmd none .waiting (ent 9 0 0 0 4096 0 0)
def runBench (c : Cmd) (sc : List Scan) : Mach :=
  let m := hostBench c
  { m with slc := { m.slc with progs := [(16384, filterProg)] }, scans := sc.map fun x => (5, x),
           mem := { cells := ((List.range 64).map fun i => (0x1000000040 + i, filterBytes.getD i 0)).filter fun x => x.2 != 0, chk := [], tags := [] } }

/-- ScanPipelines: a RUN that begins and one with no thread free; a spikelet's end by a stopped and by a waiting thread; records that fit and do not. -/
theorem test_run :
    ((runBench runCmd []).prog? none 0 = some filterProg ∧ ((runBench runCmd []).profileOf filterProg true).map (·.outbufs) = some 1 ∧
     alone (runBench runCmd []) 5 runCmd 9 = true ∧ (runBench runCmd []).scanWidth runCmd = 1) ∧
    (let m := (runBench runCmd []).setLedger 4 { (runBench runCmd []).ledger 4 with free := 0 }
     m.scanWidth runCmd = 0 ∧ run (.run 5) m = m) ∧
    (let sc := { (budget 3) with spks := [], next := 0 }
     let c := { runCmd with started := true, phase := .running }
     let m := (runBench c [sc]).setThr 9 { Thr.reset with state := .idle, ring := .r1, mask := 1, entry := 0x400000020 }
     m.filterFree sc 9 = true ∧ m.filterFree sc 8 = false ∧
     m.startCode who0 9 = 0 ∧ run (.spikeletStart 5 8 none) m = m) ∧
    (let sc := budget 3
     let m := (runBench { runCmd with started := true, phase := .running } [sc]).setThr 9 { Thr.reset with state := .stopped, xrec := 0x102 }
     (sc.of 9).isSome = true ∧ sc.of 8 = none ∧ runCmd.spkCount = 1 ∧
     ((run (.spikeletEnd 5 9 none) m).scans.map fun x => x.2.spks.map fun y => y.2.state) = [[.failed 0x0408 0x102]] ∧ run (.spikeletEnd 5 8 none) m = m) ∧
    (let sc := budget 3
     let m := (runBench { runCmd with started := true, phase := .running } [sc]).setThr 9 { Thr.reset with state := .waiting, waitKind := .waitwork }
     (m.readBytes (bufAddr 600) 64).1 = m ∧ (match (m.readBytes (bufAddr 600) 64).2 with | .ok d => leAt d 0x20 4 | _ => 1) = 0 ∧
     m.outBytes [601] 0 = (m, some []) ∧
     ((run (.spikeletEnd 5 9 none) m).scans.map fun x => x.2.spks.map fun y => y.2.state) = [[.output (zeros 16)]]) ∧
    (let sc := { (budget 3) with sealRec := true, sealSlot := 70 }
     let m0 := (runBench { runCmd with started := true, phase := .running } [sc]).setThr 9 { Thr.reset with state := .waiting, waitKind := .waitwork }
     let m := { m0 with mem := { cells := [(bufAddr 600 + 0x20, 1), (bufAddr 601, 0x5A)], chk := [], tags := [] }
                        dgs := { Dgs.reset with keys := [(70, { Key.reset with value := 9, valid := true, usage := .general, ring := 2 })] } }
     m.outBytes [601] 1 = (m, some [0x5A]) ∧ (m.useKey 70 .r1 0 [.general]).2 = some true ∧
     ((run (.spikeletEnd 5 9 none) m).scans.map fun x => x.2.spks.map fun y => match y.2.state with | .output r => r.length | _ => 0) = [[48]] ∧
     ((run (.spikeletEnd 5 9 (some 2)) m).scans.map fun x => x.2.spks.map fun y => y.2.state) = [[.failed 0x0407 0]]) ∧
    (let sp : Spk := { state := .output (zeros 16), dbuf := 600, inb := [], cls := [], outb := [601] }
     let sc := { (budget 3) with spks := [(0, sp)], threads := [] }
     let c := { runCmd with ent := ent 9 0 0 17 16 0 0, started := true, phase := .running }
     let c2 := { runCmd with ent := ent 9 0 0 0 15 0 0, started := true, phase := .running }
     c.spkCount = 2 ∧ ((run (.recordWrite 5) (runBench c [sc])).scans.map fun x => x.2.bytes) = [16] ∧
     ends (.recordWrite 5) (runBench c2 [sc]) 0x0400 0 = true ∧ run (.recordWrite 5) (runBench c2 [{ sc with spks := [] }]) = runBench c2 [{ sc with spks := [] }] ∧
     ends (.recordWrite 5) (runBench c2 [{ sc with spks := [(0, { sp with state := .failed 0x0408 2 })] }]) 0x0408 2 = true) := by decide +kernel

/-- ScanPipelines: VERIFY-FIXITY that opens its context, and one with its only block and the host's digest in hand. -/
theorem test_fixity :
    (let c := cmd (some 2) .dataReady (ent 6 1 0 1 32 0 0)
     alone (rangeBench c .guard) 5 c 6 = true ∧ (rangeBench c .guard).dgs.ctxs = [] ∧ ((rangeBench c .guard).ledger 7).free ≠ 0) ∧
    (let c := { cmd (some 2) .running (ent 6 1 0 1 32 0 0) with started := true, bufs := [600] }
     let sc := { (budget 3) with threads := [], ctx := some 1, spks := [] }
     let m := { rangeBench c .guard with scans := [(5, sc)], dgs := { Dgs.reset with ctxs := [(1, { Dctx.reset with open_ := true, forTag := some 5 })] } }
     alone m 5 c 6 = true ∧ (m.dctx 1).cplOk = true ∧ (m.dctx 1).err = 0 ∧
     (match m.grainIn 5 c 0 none with
      | .ok m1 b =>
        let f1 := m1.fixityFeed sc 1 (b.take 4096)
        let r := (f1.1.setScan 5 { f1.2 with blocks := 1 }).bufData c.bufs
        decide (m1.hq = m.hq) && decide (m1.scans = m.scans) && r.2.isSome && decide (r.1.hq = m.hq)
      | _ => false) = true) := by decide +kernel
/-! ## Media translation and the flash channels -/

/-- The landing set of quadrant 0 in a state, with its pages of stripe 0 on the media, verified or not. -/
def mediaSet (st : SetState) : MSet :=
  { members := (List.range 32).map fun i => (i, 0), state := st, cls := 0, fine := false, landing := true, quad := 0, stripe := 1, pos := 0, off := 0,
    lastAt := 0, victim := false, toErase := [] }
/-- A grain of tag 5 in stripe 0 of set 0, or a landed one. -/
def grainOf (landed : Bool) : WGrain :=
  { tag := 5, asn := 0, boot := 0, slice := 2, ns := 0, grain := 1, fine := false, kind := .packed, warm := false, gen := 0, content := [], ilen := 64,
    lsn := 0, set := 0, stripe := 0, pos := 0, off := 0, issued := true, landed := landed, mapped := false, jsn := 0, bufs := [] }
/-- A machine with that set and these grains of work. -/
def mediaBench (s : MSet) (g : List WGrain) (verified : Bool) : Mach :=
  let m := hostBench (cmd none .waiting (ent 4 0 0 0 0 0 0))
  let pg : Tab Page := (List.range 32).map fun i => (pageKey i 0 0, { data := [], slc := true, verified := verified })
  { m with hq := { m.hq with cmds := [] }, map := { Map.reset with sets := [(0, s)], work := g, mount := 5 }, fch := { Fch.reset with dies := someDies, pages := pg } }
/-- A record of the journal. -/
def rec1 : JRec := { jsn := 1, typ := 1, ns := 0, slice := 2, w1 := 0, w2 := 0, w3 := 0 }
/-- A move of grain 1 to page 0 of die 0. -/
def moveOf (jsn : Nat) : Move :=
  { jsn := jsn, key := coarseKey 2 0 1, fine := false, new_ := entryWord 1 { die := 0, block := 0, page := 0, off := 0 } 1, old := 0, from_ := 0 }

/-- MediaTranslation: a stripe open and closed, a map update, a stripe's time, a reclaim. -/
theorem test_landing :
    (mediaBench (mediaSet .open_) [grainOf false] false).allClosed (grainOf false) = false ∧
    (mediaBench (mediaSet .open_) [grainOf false] true).allClosed (grainOf false) = true ∧
    (run (.landingComplete 5 1) (mediaBench (mediaSet .open_) [grainOf false] true)).map.imgs = [(grainOf false).img] := by decide +kernel
/-- A machine with a landed grain, and one with nothing but the set. -/
def landedM : Mach := mediaBench (mediaSet .open_) [grainOf true] true
def setM (st : SetState) : Mach := mediaBench (mediaSet st) [] true
theorem test_map_update :
    landedM.mayMap (grainOf true) = true ∧ (landedM.mset? 0).isSome = true ∧ (mediaSet .open_).key 0 0 = some (pageKey 0 0 0) ∧
    (run (.mapUpdate 5 1) landedM).map.work = [] ∧ (run (.mapUpdate 5 1) landedM).map.jsn = 1 ∧ (run (.mapUpdate 5 2) landedM).map = landedM.map ∧
    ({ landedM with pwr := { Pwr.reset with stop := true } } : Mach).mayMap (grainOf true) = false := by decide +kernel
theorem test_reclaim :
    (setM .closed).mediaHeld = false ∧ (setM .closed).mayErase 0 (mediaSet .closed) = true ∧
    ((run (.reclaim 0) (setM .closed)).mset? 0).map (·.state) = some .erasing ∧ (run (.reclaim 1) (setM .closed)).map = (setM .closed).map ∧
    (run (.foldCommit 0) (setM .closed)).map = (setM .closed).map ∧
    (run (.landingStripeTimeout 0) { (setM .open_) with tb := 19999 }).map = (setM .open_).map := by decide +kernel
/-- The open set's machine with a record waiting in an open page, or in a closed one with moves. -/
def openPage (t : Nat) : Mach := { (setM .open_) with tb := t, map := { (setM .open_).map with jopen := [rec1] } }
def closedPage (v : List Move) : Mach :=
  { (setM .open_) with map := { (setM .open_).map with jqueue := [{ recs := [rec1], lwm := 3, stamp := 0, boot := 0 }], moves := v } }
/-- MediaTranslation: a page at its time, and a durable page with and without a move. -/
theorem test_journal :
    (run .journalPageTimeout (openPage 4999999)).map.jqueue = [] ∧ (run .journalPageTimeout (openPage 5000000)).map.jqueue.length = 1 ∧
    (run .journalPageDurable (setM .open_)).map = (setM .open_).map ∧ (run .journalPageDurable (closedPage [])).map.jsnDone = 1 ∧
    (run .journalPageDurable (closedPage [moveOf 1])).entry false (coarseKey 2 0 1) = (moveOf 1).new_ := by decide +kernel

/-- MediaTranslation: a fold's commit, a checkpoint, a page load with a good entry, the last one, and one malformed. -/
theorem test_folds_and_loads :
    (let g : Img := (grainOf true).img
     let m0 := mediaBench (mediaSet .open_) [] true
     let m := { m0 with map := { m0.map with imgs := [g], moves := [moveOf 0] } }
     g.lsn = 0 ∧ (moveOf 0).key = mapKey g.fine g.slice g.ns g.grain ∧ m.committed (moveOf 0) = true ∧
     (run (.foldCommit 0) m).map.jopen.map (·.typ) = [4]) ∧
    (let m := mediaBench (mediaSet .open_) [] true
     (run (.checkpoint false 7) m).map.ckptWait.length = 1 ∧
     (let c := { m with map := { m.map with cold := [7, 8] } }
      run (.checkpoint false 7) c = c ∧ (run (.mapPageLoad false 7) c).map.cold = [8] ∧
      (run (.mapPageLoad false 7) { c with map := { c.map with cold := [7] } }).map.resident = true ∧
      entryOk (at_ 61 6) = false ∧
      (run (.mapPageLoad false 0) { c with map := { c.map with cold := [0, 8], coarse := [(5, at_ 61 6)] } }).pwr.stop = true)) := by decide +kernel

/-- MediaUpkeep: a mount of new media and one refused, seals with and without a limit, both ends of a sweep, MAP_TIME, its time. -/
theorem test_upkeep :
    (let m := booted 0
     m.mediaHeld = false ∧ m.fwa.limp = false ∧ m.map.mount = 0 ∧ run (.mount [] []) Mach.reset = Mach.reset) ∧
    (let m := { (mediaBench (mediaSet .closed) [] true) with map := { (mediaBench (mediaSet .closed) [] true).map with seals := [nsKey 255 15], modSeal := true, reserve := 0 },
                                                              fch := { Fch.reset with dies := someDies.map fun e => (16 * e.1, e.2) } }
     m.atLimit 255 15 = false ∧ (run (.unsealNs who1 255 15) m).map.seals = [] ∧ m.spare ≠ 0 ∧ (run (.unsealModule who0) m).map.modSeal = false ∧
     said (.unsealNs (who2 0) 0 0) m (.denied 2) = true) ∧
    (Mach.reset.spare = 0 ∧ (run (.unsealModule who0) Mach.reset).sys.rsvCount = 1 ∧ Mach.reset.sweepList = [] ∧
     ((run (.sweep who0) Mach.reset).evt 1011).pend = 1) ∧
    (let m0 := mediaBench (mediaSet .closed) [] true
     let m := { m0 with map := { m0.map with coarse := [(coarseKey 2 0 1, (moveOf 0).new_)] } }
     m.sweepList = [0] ∧ ((run (.sweep who0) m).map.sweep) = some { todo := [0] } ∧
     (let w := { m with map := { m.map with sweep := some { todo := [0, 1] } } }
      (run (.retentionSweep 1 48 false) w).map.sweep = some { todo := [0] } ∧ run (.retentionSweep 2 48 false) w = w ∧
      (run (.retentionSweep 0 48 false) { m with map := { m.map with sweep := some { todo := [0] } } }).map.sweep = none) ∧
     ((run (.mapTimeWrite who0 5) m).map.sweep).isSome = true ∧
     (run (.mapTimeWrite who0 5) { m with map := { m.map with timeSet := true } }).map.time = 5 ∧
     (run .mapTimeTimeout { m with tb := 5999999999 }).map.timeDue = false ∧ (run .mapTimeTimeout { m with tb := 6000000000 }).map.timeDue = true) ∧
    (let m := { (mediaBench (mediaSet .closed) [] true) with map := { (mediaBench (mediaSet .closed) [] true).map with
       nslim := [(nsKey 2 0, 1)], coarse := [(coarseKey 2 0 1, entryWord 5 { die := 0, block := 0, page := 0, off := 0 } 0)] } }
     m.atLimit 3 0 = false) := by decide +kernel

/-- A die of an active channel with an operation in it and these in its queue. -/
def dieBench (cur : Option DieOp) (q : List DieOp) (d : Die) : Mach :=
  let m := mediaBench { (mediaSet .erasing) with toErase := [(0, 0)] } [] true
  { m with fch := { m.fch with dies := [(0, { d with state := .inService, busyR := 10, busyP := 10, busyE := 10, queue := q,
                                                       cur := cur.map fun o => { op := o, more := [], from_ := 0, tokens := 1, again := false } })],
                               chans := [(0, { Chan.reset with state := .active })], vccq := [(0, { Vccq.reset with en := true })] } }
/-- An operation on block 0, page 0. -/
def dieOp (k : NandKind) (why : NandFor) : DieOp := { kind := k, cls := 1, block := 0, page := 0, slice := none, at_ := 0, why := why }

/-- FlashChannels: an issue and one without tokens, a read's page, a program that verifies and one that fails, an erase, the times, a reset. -/
theorem test_flash :
    (let m := dieBench none [dieOp .read (.cmd 5)] Die.reset
     m.unsound (.tokens 0) = false ∧ m.dieReady 0 = true ∧ m.nandChoice 0 = some (0, dieOp .read (.cmd 5)) ∧
     ((run (.nandOpIssue 0) m).die 0).cur.isSome = true ∧ run (.nandOpIssue 1535) m = m ∧
     (let z := m.setLedger 9 { m.ledger 9 with free := 0 }
      run (.nandOpIssue 0) z = z) ∧
     ((run (.nandOpIssue 0) { m with pwr := { m.pwr with mism := [.tokens 0] } }).die 0).tokBad = true) ∧
    ((run (.nandStatusRead 0 false 1) (dieBench (some (dieOp .read (.cmd 5))) [] Die.reset)).fch.got.map (·.tag) = [5]) ∧
    (let m := dieBench (some (dieOp .slcProgram (.land 0))) [] Die.reset
     ((tget? m.fch.pages (pageKey 0 0 0)).map (·.verified)) = some true ∧ ((run (.nandStatusRead 0 true 0) m).chan 0).pfail = 1 ∧
     ((run (.nandStatusRead 0 false 0) m).die 0).cur = none) ∧
    (let m := dieBench (some (dieOp .erase (.erase 0))) [] Die.reset
     ((run (.nandStatusRead 0 false 0) m).mset? 0).map (·.state) = some .free ∧ tget? (run (.nandStatusRead 0 false 0) m).fch.pages (pageKey 0 0 0) = none) ∧
    (let m := dieBench (some (dieOp .read .other)) [] Die.reset
     run (.nandOpTimeout 0) { m with tb := 9 } = { m with tb := 9 } ∧ ((run (.nandOpTimeout 0) { m with tb := 10 }).die 0).resetAt = some 10 ∧
     (let r := run (.nandOpTimeout 0) { m with tb := 10 }
      run (.resetLunTimeout 0) { r with tb := 10000009 } = { r with tb := 10000009 } ∧
      ((run (.resetLunTimeout 0) { r with tb := 10000010 }).die 0).state = .failed ∧
      (((run (.nandStatusRead 0 false 0) r).die 0).cur.map (·.again)) = some true)) := by decide +kernel

/-- FlashChannels: a suspension and a resumption, an overcurrent at its limit, LOW at its time, a larger and a smaller pool. -/
theorem test_flash_supply :
    (let m0 := dieBench (some (dieOp .erase (.erase 0))) [dieOp .read (.cmd 5)] { Die.reset with canSusp := true }
     let m := { m0 with tb := 50000 }
     (m.die 0).readWaits = true ∧ ((run (.eraseSuspend 0 true) m).die 0).susp.isSome = true ∧ run (.eraseSuspend 0 false) m = m ∧
     (let s := run (.eraseSuspend 0 true) m
      run (.eraseResume 0) s = s ∧ ((run (.eraseResume 0) (s.setDie 0 { s.die 0 with past := 8 })).die 0).cur.isSome = true)) ∧
    (let m := dieBench none [] Die.reset
     ((run (.vccqOvercurrent 0 1501) m).vccq 0).overcur = true ∧ run (.vccqOvercurrent 0 1500) m = m ∧
     (let l := run (.vccqLow 0 100) m
      (l.vccq 0).low = true ∧ run (.vccqLowTimeout 0) { l with tb := 9999999 } = { l with tb := 9999999 } ∧ ((run (.vccqOutRecover 0 1) l).vccq 0).low = false) ∧
     run (.vccqLow 3 100) m = m) ∧
    ((run (.fchPtokPoolWrite who0 65535) Mach.reset).fch.pool = 65535 ∧ (run (.fchPtokPoolWrite who1 1) Mach.reset).fch.debt = 0 ∧
     (let z := Mach.reset.setLedger 9 { Mach.reset.ledger 9 with free := 1 }
      (run (.fchPtokPoolWrite who1 3000) z).fch.debt = 71) ∧
     (run (.fchPtokPoolWrite who0 0) Mach.reset).fch.pool = 3072 ∧ said (.fchPtokPoolWrite (who2 0) 5) Mach.reset (.denied 2) = true) := by
  decide +kernel
/-! ## Jobs of the engines -/

/-- The common header of a descriptor of n bytes for function fn in context 2, with the fields at 0x10, 0x18 and 0x20. -/
def descHead (fn n src dst len : Nat) : List Byte :=
  leBytes 2 fn ++ [2, 0] ++ leBytes 4 n ++ zeros 8 ++ leBytes 8 src ++ leBytes 8 dst ++ leBytes 4 len
/-- A Groat descriptor: compressed elements of one byte, no predictor. -/
def groatDesc (fn src dst len lim : Nat) : List Byte := descHead fn 48 src dst len ++ leBytes 4 lim ++ zeros 8
/-- A cipher descriptor, with the fields from 0x24 on: the slot, a data unit, the tweak or IV, the AAD and its length, OC and the tag. -/
def cphDesc (fn src dst len slot du aad aadlen oc tag : Nat) : List Byte :=
  descHead fn 80 src dst len ++ leBytes 2 slot ++ leBytes 2 du ++ zeros 16 ++ leBytes 8 aad ++ leBytes 4 aadlen ++ [BitVec.ofNat 8 oc, 0, 0, 0] ++ leBytes 8 tag
/-- A winnow descriptor over table 3 of slice 4. -/
def wnwDesc (fn src dst n : Nat) : List Byte := descHead fn 48 src dst n ++ [if fn = 2 then 0 else 3, 4] ++ zeros 10
/-- The machine with the job at its port in a state, before all else that it may need. -/
def oneJob (p : Nat) (st : JobState) (d : List Byte) : Mach := { Mach.reset with eng := [(p, { Eng.reset with jobs := [job st d] })] }
/-- The rows of the engines with their ports and functions. -/
def jobRows : List (Instr × Nat × Nat) :=
  [(.compress 3 2 none, 0x13, 1), (.decompress 3 2, 0x13, 2), (.validate 3 2, 0x13, 3), (.xtsEncrypt 1 2 none, 0x21, 1), (.xtsDecrypt 1 2 none, 0x21, 2),
   (.gcmEncrypt 1 2 none, 0x21, 3), (.gcmDecrypt 1 2 none, 0x21, 4), (.search 2, 0x30, 1), (.insert 2, 0x30, 2), (.winnowDelete 2, 0x30, 3), (.winnowClear 2, 0x30, 4)]
/-- The status and the result of the job of context 2 at a port, once it has run. -/
def jobEnd (m : Mach) (p : Nat) : Option (Nat × Nat) := (m.headJob p 2).bind fun j => if j.state = .ran then some (j.status, j.result) else none

/-- EngineJobs: no job, a bad copy, a bad field; a job that has run; and the OFFLINE registers. -/
theorem test_job_rows :
    (jobRows.all fun r => run r.1 Mach.reset == Mach.reset && (Mach.reset.toRun r.2.1 2 r.2.2).isNone) = true ∧
    (jobRows.all fun r =>
      let m := { Mach.reset with eng := [(r.2.1, { Eng.reset with jobs := [{ job .queued (descHead r.2.2 0 0 0 0) with descOk := false }] })] }
      (m.toRun r.2.1 2 r.2.2).isSome && jobEnd (run r.1 m) r.2.1 == some (0x0304, 0)) = true ∧
    (jobRows.all fun r =>
      let m := oneJob r.2.1 .queued (descHead r.2.2 0 0 0 0)
      (m.toRun r.2.1 2 r.2.2).isSome && jobEnd (run r.1 m) r.2.1 == some (0x0101, 4)) = true := by decide +kernel
theorem test_job_completion :
    run (.engineJobComplete 0x13 2) Mach.reset = Mach.reset ∧
    (let m := oneJob 0x13 .ran (groatDesc 1 0 0 0 0)
     m.engOn = true ∧ (m.headJob 0x13 2).map (·.state) = some .ran ∧ (job .ran (groatDesc 1 0 0 0 0)).event = false ∧
     ((run (.engineJobComplete 0x13 2) m).engine 0x13).jobs.map (·.state) = [.complete] ∧
     (let t : Thr := { Thr.reset with state := .waiting, waitKind := .jobWait, waitOn := jobHandle 0x13 2 7 }
      let w := { m with sch := { m.sch with thrs := [(9, t)] } }
      w.entriesUsed + t.groups.length ≤ w.sch.pool ∧ w.readyHeld 9 = false ∧ (slotLedger 0x13).all (fun l => (w.ledger l).sealed) = true ∧
      ((run (.engineJobComplete 0x13 2) w).thr 9).wake = .value 0x30000 ∧ ((run (.engineJobComplete 0x13 2) w).engine 0x13).jobs = [])) ∧
    ([(Instr.grtOfflineWrite who0 3 1, 0x13), (.cphOfflineWrite who0 1 1, 0x21)].all fun r =>
      ((run r.1 Mach.reset).engine r.2).offline && ((run r.1 Mach.reset).evt (portEvent r.2 + 4)).pend == 1) = true ∧
    said (.grtOfflineWrite who1 3 1) Mach.reset (.denied 2) = true ∧ said (.cphOfflineWrite who1 3 0) Mach.reset (.denied 2) = true := by decide +kernel

/-- A Groat job over the 64 bytes at the spot, its output 4 KiB behind. -/
def groatBench (fn len lim : Nat) : Mach := oneJob 0x13 .queued (groatDesc fn spot (if fn = 3 then 0 else spot + 4096) len (if fn = 3 then 0 else lim))
/-- The frame of 64 zeros, 4 KiB behind the spot after its compression, and a machine with it at the spot. -/
def frame64 : List Byte := ({ esz := 1, pred := 0, stride := 0, row := 0 } : GParam).frame (zeros 64)
def frameBench (fn lim : Nat) : Mach := { groatBench fn frame64.length lim with mem := (Mach.reset.storeMem spot frame64).mem }

/-- GroatJobs: a whole frame, one past its limit, a failed block, a source that fails, and one that waits; a frame decoded and validated. -/
theorem test_groat :
    (let m := groatBench 1 64 4096
     let j := job .queued (groatDesc 1 spot (spot + 4096) 64 4096)
     m.toRun 0x13 2 1 = some j ∧ m.jobBad 0x13 j = none ∧ (m.engRead j spot 64).2 = (zeros 64, .ok ()) ∧
     jobEnd (run (.compress 3 2 none) m) 0x13 = some (0, frame64.length) ∧ ((run (.compress 3 2 none) m).readBytes (spot + 4096) 8).2 = .ok (frame64.take 8) ∧
     jobEnd (run (.compress 3 2 none) (groatBench 1 64 8)) 0x13 = some (0x0400, 0) ∧ checkedBlock (frame64.drop 16) = true ∧
     jobEnd (run (.compress 3 2 (some 0)) m) 0x13 = some (0x0401, 0)) ∧
    (let d := groatDesc 1 (spot + 4032) (spot + 8192) 128 4096
     let m0 := oneJob 0x13 .queued d
     let m := m0.setBuf (bufAt (spot + 4096)) { m0.buf (bufAt (spot + 4096)) with state := .owned, owner := 0xC000 }
     m.jobBad 0x13 (job .queued d) = none ∧ (m.engRead (job .queued d) (spot + 4032) 128).2 = (zeros 64, .bad 64) ∧
     jobEnd (run (.compress 3 2 none) m) 0x13 = some (0x0409, 64)) ∧
    (let d := groatDesc 1 dramBase spot 64 4096
     let m := { oneJob 0x13 .queued d with drc := { Drc.reset with ranks := [(0, { Rank.reset 0 with state := .filling })] } }
     m.jobBad 0x13 (job .queued d) = none ∧ (m.engRead (job .queued d) dramBase 64).2.2 = .wait ∧ run (.compress 3 2 none) m = m) ∧
    (let j := job .queued (groatDesc 2 spot (spot + 4096) frame64.length 4096)
     let m := frameBench 2 4096
     m.toRun 0x13 2 2 = some j ∧ m.jobBad 0x13 j = none ∧ (m.engRead j spot frame64.length).2 = (frame64, .ok ()) ∧
     (decodeFrame frame64 true (some 4096)).out = zeros 64 ∧ jobEnd (run (.decompress 3 2) m) 0x13 = some (0, 64) ∧
     jobEnd (run (.validate 3 2) (frameBench 3 0)) 0x13 = some (0, 64)) := by decide +kernel

/-- A machine with a cipher job at pair 1, and keys of rings 0 to 2 in slots 8 (XTS1), 9 (XTS2) and 10 (general). -/
def cphBench (st : JobState) (d : List Byte) : Mach :=
  let key := fun (v : BitVec 256) (u : Usage) => { Key.reset with value := v, valid := true, usage := u, ring := 2, cplOk := true }
  { oneJob 0x21 st d with dgs := { Dgs.reset with keys := [(8, key 0x1234 .xts1), (9, key 0x5678 .xts2), (10, key 0x9ABC .general)] } }
/-- An XTS job over 32 bytes of the spot. -/
def xtsDesc (fn slot : Nat) : List Byte := cphDesc fn spot (spot + 4096) 32 slot 32 0 0 0 0
/-- A GCM job over 32 bytes of the spot with 8 bytes of AAD and the tag further on. -/
def gcmDesc (fn : Nat) : List Byte := cphDesc fn spot (spot + 4096) 32 10 0 (spot + 512) 8 (if fn = 4 then 5 else 0) (spot + 1024)
/-- What XTS makes of 32 zeros, and GCM's ciphertext and tag of them. -/
def xts32 (enc : Bool) : List Byte := xts enc 0x1234 0x5678 32 0 (zeros 32)
def gcm32 : List Byte := gcmCrypt 0x9ABC (zeros 12) (zeros 32)
def tag32 : List Byte := gcmTag 0x9ABC (zeros 12) (zeros 8) gcm32

/-- CipherJobs: a key that may not be used, XTS both ways, a segment whose check differs. -/
theorem test_xts :
    ([(true, 1, Instr.xtsEncrypt 1 2 none, Instr.xtsEncrypt 1 2 (some 0)), (false, 2, .xtsDecrypt 1 2 none, .xtsDecrypt 1 2 (some 0))].all fun r =>
      let m := cphBench .queued (xtsDesc r.2.1 8)
      let j := job .queued (xtsDesc r.2.1 8)
      m.toRun 0x21 2 r.2.1 == some j && (m.jobBad 0x21 j).isNone && (m.engRead j spot 32).2 == (zeros 32, .ok ()) &&
      jobEnd (run (r.2.2.1) (cphBench .queued (xtsDesc r.2.1 10))) 0x21 == some (0x0105, 0x24) &&
      jobEnd (run r.2.2.1 m) 0x21 == some (0, 32) && (match ((run r.2.2.1 m).readBytes (spot + 4096) 32).2 with | .ok b => b == xts32 r.1 | _ => false) &&
      jobEnd (run r.2.2.2 m) 0x21 == some (0x0407, 0) && (run r.2.2.2 m).byte (spot + 4096) == 0) = true := by decide +kernel

/-- CipherJobs: a GCM encryption; a decryption that does not get its buffers, one whose tag is right and one whose tag is not. -/
theorem test_gcm :
    (let m := cphBench .queued (gcmDesc 3)
     let j := job .queued (gcmDesc 3)
     m.toRun 0x21 2 3 = some j ∧ m.jobBad 0x21 j = none ∧ (m.engRead j (spot + 512) 8).2 = (zeros 8, .ok ()) ∧
     jobEnd (run (.gcmEncrypt 1 2 none) m) 0x21 = some (0, 32) ∧ ((run (.gcmEncrypt 1 2 none) m).readBytes (spot + 4096) 32).2 = .ok gcm32 ∧
     ((run (.gcmEncrypt 1 2 none) m).readBytes (spot + 1024) 16).2 = .ok tag32) ∧
    (let m0 := cphBench .queued (gcmDesc 4)
     let m := { m0 with grn := { m0.grn with cls := [(6, { m0.cls 6 with ceil := 0 })] } }
     let j := job .queued (gcmDesc 4)
     m.toRun 0x21 2 4 = some j ∧ m.jobBad 0x21 j = none ∧ (m.quarReserve 0x21 { j with key := 0x9ABC }).isNone = true ∧
     ((run (.gcmDecrypt 1 2 none) m).headJob 0x21 2).map (·.state) = some .reserving ∧ ((run (.gcmDecrypt 1 2 none) m).evt 587).pend = 1) ∧
    (let j := { job .reserved (gcmDesc 4) with key := 0x9ABC, qbufs := [40] }
     let m0 := { cphBench .queued [] with eng := [(0x21, { Eng.reset with jobs := [j] })] }
     let m := { m0 with mem := (m0.storeMem (spot + 1024) (gcmTag 0x9ABC (zeros 12) (zeros 8) (zeros 32))).mem }
     m.headJob 0x21 2 = some j ∧ (m.engRead j spot 32).2 = (zeros 32, .ok ()) ∧
     ((run (.gcmDecrypt 1 2 none) m).headJob 0x21 2).map (·.state) = some .moving ∧
     ((run (.gcmDecrypt 1 2 none) m).readBytes (bufAddr 40) 32).2 = .ok gcm32 ∧
     jobEnd (run (.gcmDecrypt 1 2 none) m0) 0x21 = some (0x0406, 0)) := by decide +kernel

/-- CipherJobs: a reservation made and one not made, a buffer moved and one held back, and no job. -/
theorem test_quarantine :
    (let d := cphDesc 4 0 0 0 10 0 0 0 5 (spot + 1024)
     let m := cphBench .reserving d
     (m.headJob 0x21 2).map (·.state) = some .reserving ∧ (m.quarReserve 0x21 (job .reserving d)).isSome = true ∧
     ((run (.quarantineReserve 1 2) m).headJob 0x21 2).map (·.state) = some .reserved) ∧
    (let m0 := cphBench .reserving (gcmDesc 4)
     let m := { m0 with grn := { m0.grn with cls := [(6, { m0.cls 6 with ceil := 0 })] } }
     (m.quarReserve 0x21 (job .reserving (gcmDesc 4))).isNone = true ∧ run (.quarantineReserve 1 2) m = m) ∧
    (let j := { job .moving (gcmDesc 4) with qbufs := [40, 41] }
     let m0 := { cphBench .queued [] with eng := [(0x21, { Eng.reset with jobs := [j] })] }
     let m := { m0 with grn := { m0.grn with cls := [(5, { m0.cls 5 with ceil := 1, held := 0 }), (6, { m0.cls 6 with held := 2 })] } }
     let h := { m0 with grn := { m0.grn with cls := [(5, { m0.cls 5 with ceil := 1, held := 1 })] } }
     ((run (.quarantineMove 1 2) m).headJob 0x21 2).map (·.moved) = some 1 ∧ ((run (.quarantineMove 1 2) m).buf 40).cls = 5 ∧
     run (.quarantineMove 1 2) h = h) ∧
    run (.quarantineReserve 1 2) Mach.reset = Mach.reset ∧ run (.quarantineMove 1 2) Mach.reset = Mach.reset := by decide +kernel

/-- A winnow job with three rows in segment 5 of slice 4, live. -/
def wnwBench (rows : Tab WRow) (d : List Byte) : Mach :=
  let m := oneJob 0x30 .queued d
  let m1 := m.setSlice 4 { Slice.reset with state := .live }
  { m1 with wnw := { m1.wnw with segs := [(4, [5])], rows := rows } }
def rowOf (lo hi : W64) (prio table : Nat) : WRow := { lower := lo, upper := hi, prio := prio, result := 0x77, table := table, bad := false }
def threeRows : Tab WRow := [(80, rowOf 0 9 1 3), (81, rowOf 0 9 2 3), (82, rowOf 0 9 2 4)]
/-- A key of 0 selects the row of PRIO 2. -/
def hit0 : W64 := resultWord (some (rowOf 0 9 2 3))

/-- WinnowJobs: a choice and no choice, a row that fits and one that does not. -/
theorem test_winnow_rows :
    (let m := wnwBench threeRows []
     m.winnow 4 5 3 = some (rowOf 0 9 2 3) ∧ m.winnow 4 10 3 = none ∧ m.winnow 4 5 5 = none ∧ (m.winnowInsert 4 (rowOf 1 2 0 3)).isSome = true ∧
     (m.winnowInsert 3 (rowOf 1 2 0 3)).isNone = true) := by decide +kernel
/-- WinnowJobs: slices that may not be searched, and each kind of job to its end. -/
theorem test_winnow_jobs :
    (let d := wnwDesc 1 spot (spot + 64) 1
     let j := job .queued d
     let m := wnwBench threeRows d
     let u := { m with eng := [(0x30, { Eng.reset with jobs := [{ j with ring := .r2, slice := 1 }] })] }
     m.jobBad 0x30 j = none ∧ m.winnowSlice j = none ∧ m.toRun 0x30 2 1 = some j ∧ (m.engRead j spot 8).2 = (zeros 8, .ok ()) ∧
     m.engWaits (spot + 64) 8 = false ∧ m.engCan j (spot + 64) 8 = .ok () ∧ m.winnowBad 4 0 = none ∧
     jobEnd (run (.search 2) m) 0x30 = some (0, 1) ∧ ((run (.search 2) m).readBytes (spot + 64) 8).2 = .ok (leBytes 8 hit0.toNat) ∧
     jobEnd (run (.search 2) u) 0x30 = some (0x0105, 0x25) ∧ jobEnd (run (.search 2) (m.setSlice 4 Slice.reset)) 0x30 = some (0x0101, 0x25)) ∧
    (let d := wnwDesc 2 spot 0 1
     let full : Tab WRow := (List.range 15).map fun i => (80 + i, rowOf 0 9 1 3)
     (wnwBench threeRows d).jobBad 0x30 (job .queued d) = none ∧ jobEnd (run (.insert 2) (wnwBench threeRows d)) 0x30 = some (0, 1) ∧
     (run (.insert 2) (wnwBench threeRows d)).wnw.rows.length = 4 ∧ jobEnd (run (.insert 2) (wnwBench full d)) 0x30 = some (0x0400, 0)) ∧
    (let d := wnwDesc 3 spot 0 1
     let m := wnwBench ((79, rowOf 0 0 1 3) :: (83, rowOf 0 0 1 3) :: threeRows) d
     m.jobBad 0x30 (job .queued d) = none ∧ jobEnd (run (.winnowDelete 2) m) 0x30 = some (0, 1) ∧
     (run (.winnowDelete 2) m).wnw.rows = (79, rowOf 0 0 1 3) :: threeRows) ∧
    (let m := wnwBench threeRows (wnwDesc 4 0 0 0)
     m.jobBad 0x30 (job .queued (wnwDesc 4 0 0 0)) = none ∧ jobEnd (run (.winnowClear 2) m) 0x30 = some (0, 2) ∧
     (run (.winnowClear 2) m).wnw.rows = [(82, rowOf 0 9 2 4)]) := by decide +kernel
/-! ## Memories, DRAM and the firmware array -/

/-- A machine whose thread 9 runs on core 0 with misses on lines up to `last`, and one with a scrubber. -/
def missBench (last count : Nat) : Mach := { bench with cch := { bench.cch with runs := [(9, { last := last, count := count })] } }
def scrubBench (x : Scrub) : Mach := { Mach.reset with ecc := { Ecc.reset with scrub := x } }
/-- A scrub of 128 bytes from the spot in a mode. -/
def scrubOf (mode : ScrubMode) (running : Bool) : Scrub := { Scrub.reset with start := spot, stop := spot + 128, reached := spot, mode := mode, running := running }

/-- MemoryUpkeep: runs too short, at a page's end and before its last line; an evicted line; and the scrubber's commands and reads. -/
theorem test_prefetch :
    run (.prefetch 0 9) (missBench 62 2) = missBench 62 2 ∧ (run (.prefetch 0 9) (missBench 63 3)).cch.runs = [] ∧
    (let l := spot / 64 + 62
     let m := missBench l 3
     (l + 1) % 64 = 63 ∧ inStore (64 * (l + 1)) = true ∧ m.windowByte 9 .read (64 * (l + 1)) = none ∧ ((m.shared 0).find (l + 1)).isNone = true ∧
     (m.peekLine (l + 1)).isSome = true ∧ m.storeReady (64 * (l + 1)) = .ok [] ∧ (m.missRead (64 * (l + 1))).2.2.isSome = true ∧
     (((run (.prefetch 0 9) m).shared 0).find (l + 1)).isSome = true) ∧
    run (.evictionWriteback 0) bench = bench ∧
    (let l : Line := { base := spot / 64, way := 0, dirty := true, data := 0xA5, chk := [], used := 0 }
     let m := bench.setShared 0 { bench.shared 0 with evict := [l] }
     ((run (.evictionWriteback 0) m).shared 0).evict = [] ∧ (run (.evictionWriteback 0) m).byte spot = 0xA5) := by decide +kernel
theorem test_scrub_commands :
    (let m := scrubBench (scrubOf .survey false)
     let go := Instr.scrubGo who1 (at_ 56 2 ||| at_ 0 9)
     scrubRange spot (spot + 128) = true ∧ said go m .done = true ∧ (run go m).ecc.scrub.running = true ∧ (run go m).ecc.scrub.pace = 9 ∧
     (run go m).ecc.scrub.mode = .repair ∧ ((run go Mach.reset).evt 993).pend = 1) ∧
    (let m := scrubBench (scrubOf .survey true)
     ((run (.scrubStop who1 (at_ 56 1)) m).evt 683).pend = 1 ∧ (run (.scrubStop who1 (at_ 56 1)) m).ecc.scrub.running = false ∧
     ((run (.scrubStop who1 (at_ 56 2)) m).evt 993).pend = 1) ∧
    ([Instr.scrubGo (who2 0) 0, .scrubStop (who2 0) 0, .eccCtlClear (who2 0) 1].all fun i => said i Mach.reset (.denied 2)) = true ∧
    (let m := { Mach.reset with ecc := { Ecc.reset with ovf := 7 } }
     (run (.eccCtlClear who0 1) m).ecc = Ecc.reset) := by decide +kernel
theorem test_scrub_reads :
    run .scrubRead Mach.reset = Mach.reset ∧
    (let m := scrubBench (scrubOf .repair true)
     (m.scrubWords 8 spot).isSome = true ∧ (run .scrubRead m).ecc.scrub.reached = spot + 64 ∧ ((run .scrubRead (run .scrubRead m)).evt 682).pend = 1) ∧
    (let m0 := scrubBench (scrubOf .repair true)
     let m := { m0 with mem := { m0.mem with chk := [(spot, checkOf 0 ^^^ 1)] } }
     m.peekWord spot = .ok (zeros 8) (BitVec.ofNat 8 1) ∧ ((m.scrubWord spot).map (·.ecc.scrub.corr)) = some 1 ∧
     ((m.scrubWord spot).map (·.mem.chk)) = some []) := by decide +kernel

/-- A machine with ranks in states. -/
def ranks (l : Tab Rank) : Mach := { Mach.reset with drc := { Drc.reset with ranks := l } }
def rankIn (q : Nat) (st : RankState) : Rank := { Rank.reset q with state := st }

/-- DramService: INIT and RETIRE in each state they find. -/
theorem test_dram_commands :
    said (.drcInit who1 0) Mach.reset (.denied 2) = true ∧ said (.retireRank who1 0) Mach.reset (.denied 2) = true ∧ Mach.reset.orphans = [] ∧
    ((run (.drcInit who0 0) Mach.reset).rank 4).state = .training ∧
    (let m := ranks ((List.range 5).map fun q => (q, rankIn q .service))
     ((run (.drcInit who0 0) m).evt 993).pend = 1) ∧
    ((run (.retireRank who0 1) (ranks [(1, rankIn 1 .failed)])).evt 993).pend = 1 ∧ ((run (.retireRank who0 1) Mach.reset).rank 1).state = .retired ∧
    (let m := ranks [(1, rankIn 1 .service), (4, rankIn 4 .standby)]
     ((run (.retireRank who0 1) m).rank 1).state = .migrating ∧ ((run (.retireRank who0 1) m).rank 4).state = .copying) ∧
    ((ranks [(1, rankIn 1 .service)]).rank 4).state = .off := by decide +kernel
/-- DramService: the end of a training, a filled region and the last one. -/
theorem test_dram_bring_up :
    run (.dramTrainingDone 1 true true) Mach.reset = Mach.reset ∧ run (.dramFillRegion 1) Mach.reset = Mach.reset ∧
    (let m := ranks [(1, rankIn 1 .training)]
     ((run (.dramTrainingDone 1 false true) m).evt 744).pend = 1 ∧ m.inhibited = false ∧ (run (.dramTrainingDone 1 false true) m).fwa.trained = [1] ∧
     ((run (.dramTrainingDone 1 true true) { m with fwa := { m.fwa with trained := [1] } }).rank 1).trained = 1 ∧
     ((run (.dramTrainingDone 1 false false) m).rank 1).state = .failed) ∧
    (let m0 := ranks [(1, rankIn 1 .filling)]
     let a := dramBase + rangeSize
     let m := { m0 with mem := { m0.mem with cells := [(a - 1, 0x5A), (a, 0xA5)], chk := [(a, 3)] } }
     ((run (.dramFillRegion 1) m).rank 1).filled = 1 ∧ (run (.dramFillRegion 1) m).mem.cells = [(a - 1, 0x5A)] ∧ (run (.dramFillRegion 1) m).mem.chk = []) ∧
    ((run (.dramFillRegion 1) (ranks [(1, { rankIn 1 .filling with filled := 8191 })])).rank 1).state = .service := by decide +kernel
/-- DramService: a migration's region and its last, a corrected word copied, refreshes. -/
theorem test_dram_migration :
    run .migrationRegion Mach.reset = Mach.reset ∧
    (let m0 := ranks [(1, rankIn 1 .migrating), (4, rankIn 4 .copying)]
     let m := fun (n : Nat) => ({ m0 with drc := { m0.drc with migrating := some 1, migpos := n } } : Mach)
     (m 5).oddWords (dramBase + rangeSize) (dramBase + rangeSize + 0x100000) = [] ∧ (run .migrationRegion (m 5)).drc.migpos = 6 ∧
     ((run .migrationRegion (m 8191)).rank 4).serves = some 1 ∧ ((run .migrationRegion (m 8191)).evt 742).pend = 1 ∧
     (let b := { (m 5) with mem := { Mem.reset with chk := [(dramBase + rangeSize, checkOf 0 ^^^ 1)] } }
      b.peekWord (dramBase + rangeSize) = .ok (zeros 8) 1 ∧ (b.copyWord 1 (dramBase + rangeSize)).mem = Mem.reset)) ∧
    ((run (.dramRefresh 1) (ranks [(1, rankIn 1 .service)])).rank 1).since = 1 ∧ run (.dramRefresh 1) Mach.reset = Mach.reset ∧
    run (.mr4Read 1 3) (ranks [(1, rankIn 1 .service)]) = ranks [(1, rankIn 1 .service)] := by decide +kernel
/-- DramService: a reading of MR4 that keeps the multiplier, and one that changes it. -/
theorem test_mr4 :
    (let r := fun (n : Nat) => ({ rankIn 1 .service with since := 16, mult := n } : Rank)
     (r (Config.refreshMult 3)).refreshed = true ∧ 16 ≤ (r (Config.refreshMult 3)).since ∧ (r (Config.refreshMult 3)).mult = Config.refreshMult 3 ∧
     (r (Config.refreshMult 3 + 1)).mult ≠ Config.refreshMult 3) := ⟨rfl, Nat.le_refl 16, rfl, Nat.succ_ne_self _⟩
/-- DramService: a range that the spare takes, one that waits for it, one that is lost. -/
theorem test_range_loss :
    (let m := fun (st : RankState) => ranks [(1, { rankIn 1 .failed with serves := none }), (4, rankIn 4 st)]
     (m .standby).orphans = [1] ∧ (m .standby).dbg.frozen = false ∧ ((m .standby).settleRanges.rank 4).serves = some 1 ∧
     (m .training).settleRanges = m .training ∧ (m .retired).orphans = [1] ∧ (m .retired).drc.lost = none ∧ ((m .retired).rank 4).state = .retired) := by decide +kernel

/-- A machine with the firmware array in a state. -/
def arrayBench (f : Fwa) : Mach := { Mach.reset with fwa := f }
def anOp (kind : FwaKind) : FwaOp := { kind := kind, off := 0, src := spot, from_ := 0 }
/-- The three rows that command an operation on unit 0. -/
def arrayRows (w : Who) : List Instr := [.fwaProgram w 0, .fwaClear w 0, .fwaErase w 0]

/-- FirmwareArray: refused, bad, on the writer's bank, held, and issued. -/
theorem test_array_commands :
    ((arrayRows who1 ++ [Instr.fwaSuspend who1 0, Instr.fwaResume who1 0]).all fun i => said i Mach.reset (.denied 2)) = true ∧
    ((arrayRows who0).all fun i => ((run i (arrayBench { Fwa.reset with op := some (anOp .erase) })).evt 993).pend == 1) = true ∧
    ((arrayRows who0).all fun i =>
      let m := { bench with fwa := { bench.fwa with src := spot } }
      m.writerBank who0 == some 0 && ((run i m).evt 770).pend == 1 && (run i m).fwa.last == 1) = true ∧
    (let m0 := arrayBench { Fwa.reset with src := spot }
     let low := { m0 with pwr := { m0.pwr with inhibit := true } }
     m0.writerBank who0 = none ∧ m0.inhibited = false ∧ ((arrayRows who0).all fun i => (run i m0).fwa.op.isSome && (run i low).fwa.heldCmd.isSome &&
       ((run i low).evt 772).pend == 1) = true ∧
     (let e := { m0 with fwa := { m0.fwa with op := some (anOp .erase) } }
      let s := { m0 with fwa := { m0.fwa with susp := some (anOp .erase) } }
      (run (.fwaSuspend who0 0) e).fwa.susp = some (anOp .erase) ∧ (run (.fwaSuspend who0 0) m0).fwa = m0.fwa ∧
      ((run (.fwaResume who0 0) e).evt 993).pend = 1 ∧ (run (.fwaResume who0 0) m0).fwa = m0.fwa ∧
      (run (.fwaResume who0 0) s).fwa.op = some (anOp .erase) ∧ ((run (.fwaResume who0 0) { s with pwr := low.pwr }).evt 772).pend = 1)) := by decide +kernel
/-- FirmwareArray: the end of a program, a clear and an erase, good and not. -/
theorem test_array_ends :
    run (.fwaOpComplete true) Mach.reset = Mach.reset ∧
    (let m := fun (kind : FwaKind) => arrayBench { Fwa.reset with op := some (anOp kind) }
     let used := { m .program with mem := { Mem.reset with cells := [(fwaBase, 0x11)] } }
     let mark := fun (k : FwaKind) => ({ m k with mem := { Mem.reset with cells := [(spot, 0x77), (fwaBase, 0x11)] } } : Mach)
     let good := { m .program with mem := { Mem.reset with cells := [(spot, 0x77)] } }
     Memory.wf good.mem = true ∧ good.erased fwaBase 256 = true ∧ ((run (.fwaOpComplete true) good).evt 768).pend = 1 ∧
     (run (.fwaOpComplete true) good).byte fwaBase = 0x77 ∧
     used.erased fwaBase 256 = false ∧ (run (.fwaOpComplete true) used).fwa.last = 3 ∧
     (run (.fwaOpComplete true) (mark .clear)).byte fwaBase = 0 ∧ (run (.fwaOpComplete true) (mark .erase)).byte fwaBase = 0xFF ∧
     (run (.fwaOpComplete true) (mark .erase)).byte spot = 0x77 ∧ (run (.fwaOpComplete false) (mark .clear)).fwa.last = 2 ∧
     (run (.fwaOpComplete false) (mark .clear)).fwa.vfail = 1) := by decide +kernel

/-- FirmwareArray: each fuse refused by ring, by level and by the supply, and burned. -/
theorem test_fuses :
    ([Instr.rdpRaise who1, .rdpSeal who1, .rdpLower who1].all fun i => said i Mach.reset (.denied 2)) = true ∧
    (let full := arrayBench { Fwa.reset with sealed := true }
     ([Instr.rdpRaise who0, .rdpSeal who0, .rdpLower who0].all fun i => ((run i full).evt 993).pend == 1) = true) ∧
    (let one := arrayBench { Fwa.reset with raise := 1 }
     let low := fun (m : Mach) => ({ m with pwr := { m.pwr with inhibit := true } } : Mach)
     (run (.rdpRaise who0) (low Mach.reset)).fwa.heldFuse = [1] ∧ (run (.rdpSeal who0) (low Mach.reset)).fwa.heldFuse = [2] ∧
     (run (.rdpLower who0) (low one)).fwa.heldFuse = [3] ∧ (run (.rdpRaise who0) Mach.reset).fwa.raise = 1 ∧
     ((run (.rdpRaise who0) Mach.reset).evt 777).pend = 1 ∧ (run (.rdpSeal who0) Mach.reset).fwa.level = 2 ∧
     one.fwa.level = 1 ∧ said (.rdpLower who0) one .done = true ∧ (run (.rdpLower who0) one).fwa.lowreq = 1) := by decide +kernel

end Sys2Proof.Tests
end

section
/-! PROOFS. Chapter 00 of the spec: what the commands do to the test access port, what an access through DBGACC comes to, and the state
right after reset. -/

namespace Sys2Proof.Machine

/-! ## What a raise leaves alone -/

theorem Mach.makeReady_onlySch {m m1 : Mach} {k : Nat} {w : Wake} (h : m.makeReady k w = some m1) : ∃ sc, m1 = { m with sch := sc } := by
  unfold Mach.makeReady at h
  dsimp only at h
  split at h
  · exact ⟨_, (Option.some.inj h).symm⟩
  · cases h

theorem Mach.acceptEv_onlySch {m m1 : Mach} {e : Nat} (h : m.acceptEv e = some m1) : ∃ sc, m1 = { m with sch := sc } := by
  unfold Mach.acceptEv at h
  dsimp only at h
  split at h
  · exact Mach.makeReady_onlySch h
  · split at h
    · exact ⟨_, (Option.some.inj h).symm⟩
    · cases h

theorem Mach.holdRaise_onlySch (m : Mach) (h : HeldRaise) : ∃ sc, m.holdRaise h = { m with sch := sc } := by
  unfold Mach.holdRaise
  dsimp only
  split
  · split
    next hacc =>
      obtain ⟨sc, rfl⟩ := Mach.acceptEv_onlySch hacc
      exact ⟨sc, rfl⟩
    next => exact ⟨_, rfl⟩
  · exact ⟨_, rfl⟩

/-- A raise that reaches the scheduler changes the scheduler alone, whether it is accepted or held at its source (R196). -/
theorem Mach.deliver_onlySch (m : Mach) (e : Nat) : ∃ sc, m.deliver e = { m with sch := sc } := by
  unfold Mach.deliver
  cases hacc : m.acceptEv e with
  | none => exact Mach.holdRaise_onlySch m _
  | some m1 => exact Mach.acceptEv_onlySch hacc

/-- An event past the alarms is asserted while the fabric is frozen, and reaches the scheduler otherwise (R607). -/
theorem Mach.raise_of_ge {m : Mach} {e : Nat} (he : 32 ≤ e) :
    m.raise e = if m.dbg.frozen then { m with dbg := { m.dbg with asserted := m.dbg.asserted ++ [e] } } else m.deliver e := by
  simp only [Mach.raise, if_neg (Nat.not_lt.mpr he)]

theorem Mach.raise_onlySchAsserted (m : Mach) {e : Nat} (he : 32 ≤ e) :
    ∃ sc l, m.raise e = { m with sch := sc, dbg := { m.dbg with asserted := l } } := by
  rw [Mach.raise_of_ge he]
  split
  · exact ⟨_, _, rfl⟩
  · obtain ⟨sc, h⟩ := Mach.deliver_onlySch m e
    exact ⟨sc, m.dbg.asserted, h⟩

/-- Such a raise leaves memory and the record of the last debug access alone. -/
theorem Mach.raise_frame (m : Mach) {e : Nat} (he : 32 ≤ e) :
    (m.raise e).dbg.accOk = m.dbg.accOk ∧ (m.raise e).dbg.accData = m.dbg.accData ∧ (m.raise e).mem = m.mem := by
  obtain ⟨sc, l, h⟩ := m.raise_onlySchAsserted he
  rw [h]
  exact ⟨rfl, rfl, rfl⟩

theorem Mach.acceptEv_of_hears {m : Mach} {e : Nat} (h : m.hears e) :
    m.acceptEv e = some (m.setEvt e { m.evt e with pend := (m.evt e).pend + 1 }) := by
  obtain ⟨hwait, hroom⟩ := h
  simp [Mach.acceptEv, hwait, hroom]

theorem Mach.raise_counted {m : Mach} {e : Nat} (he : 32 ≤ e) (hf : m.dbg.frozen = false) : m.counted (m.raise e) e := by
  intro h
  simp [Mach.raise_of_ge he, hf, Mach.deliver, Mach.acceptEv_of_hears h]

/-! ## One access through DBGACC (R615, R616) -/

theorem Mach.coreHidden_of_not_control {m : Mach} {a : Nat} (h : regionOf a ≠ .control) : m.coreHidden a = false := by
  have hout : ¬ (dbgReg 0 ≤ a ∧ a < dbgReg 0x100000) := by
    rintro ⟨hlo, hhi⟩
    simp only [dbgReg] at hlo hhi
    refine h ?_
    unfold regionOf fwaBase granaryBase
    rw [if_neg (by omega), if_neg (by omega), if_neg (by omega), if_pos (by omega)]
  simp [Mach.coreHidden, hout]

/-- The record that DBGACC keeps of its last access (R615). -/
def Mach.recordAccess (m : Mach) (ok : Bool) (a : BitVec 40) (d : W64) : Mach :=
  { m with dbg := { m.dbg with accOk := ok, accAddr := a, accData := d } }

section
variable {m m1 : Mach} {a : Nat} {v : BitVec 106}

theorem Mach.dbgGet_unaligned (h : a % 8 ≠ 0) : m.dbgGet a = (m, .refused) := by simp [Mach.dbgGet, h]

theorem Mach.dbgPut_unaligned (d : W64) (h : a % 8 ≠ 0) : m.dbgPut a d = (m, .refused) := by simp [Mach.dbgPut, h]

/-- At level 0 a read of the ROM, the array or the granary gives the word that stands there. -/
theorem Mach.dbgGet_stored {b : List Byte} (hl : m.fwa.level = 0) (ha : a % 8 = 0)
    (hr : regionOf a = .rom ∨ regionOf a = .fwa ∨ regionOf a = .granary) (hb : m.readBytes a 8 = (m1, .ok b)) :
    m.dbgGet a = (m1, .ok (w64 (leNat b))) := by
  have hh : m.coreHidden a = false := Mach.coreHidden_of_not_control (by rcases hr with h | h | h <;> simp [h])
  rcases hr with h | h | h <;> simp [Mach.dbgGet, ha, hl, hh, h, hb]

/-- At level 0 a write of the granary stores the word there. -/
theorem Mach.dbgPut_granary (d : W64) (hl : m.fwa.level = 0) (ha : a % 8 = 0) (hr : regionOf a = .granary) (hp : m.fwa.limp = false) :
    m.dbgPut a d = (m.storeMem a (leBytes 8 d.toNat), .ok 0) := by
  simp [Mach.dbgPut, Mach.storeReady, ha, hl, hr, hp]

/-- The first register of SYS reads as the identity of the part (R6). -/
theorem Mach.dbgGet_sysId (hl : m.fwa.level = 0) : m.dbgGet 0x200000000 = (m, .ok 0x4B9600A1) := by
  simp [Mach.dbgGet, Mach.coreHidden, dbgReg, hl, regionOf, fwaBase, granaryBase, Mach.regRead, Mach.sysRead, Mach.readReg, Who.low,
    dbgWho, sysId, DbgOut.ofReg]

theorem Mach.dbgUpdate_read {x : W64} (hw : v.getLsbD 104 = false) (hg : m.dbgGet (v.extractLsb' 64 40).toNat = (m1, .ok x)) :
    m.dbgUpdate v = m1.recordAccess true (v.extractLsb' 64 40) x := by
  simp only [Mach.dbgUpdate, hw, hg]
  rfl

theorem Mach.dbgUpdate_write {x : W64} (hw : v.getLsbD 104 = true)
    (hp : m.dbgPut (v.extractLsb' 64 40).toNat (v.extractLsb' 0 64) = (m1, .ok x)) :
    m.dbgUpdate v = m1.recordAccess true (v.extractLsb' 64 40) (v.extractLsb' 0 64) := by
  simp only [Mach.dbgUpdate, hw, hp]
  rfl

/-- An access to an address that is no multiple of 8 leaves the record of a refusal, and event 996 (R615, R618). -/
theorem Mach.dbgUpdate_unaligned (h : (v.extractLsb' 64 40).toNat % 8 ≠ 0) :
    m.dbgUpdate v = (m.recordAccess false (v.extractLsb' 64 40) 0).raise 996 := by
  simp only [Mach.dbgUpdate, Mach.dbgPut_unaligned _ h, Mach.dbgGet_unaligned h, ite_self]
  rfl

end

/-! ## The commands of the test access port (R614) -/

theorem exec_dbgaccUpdate_idle {s : State} (v : BitVec 106) (h : s.tap.ir ≠ .dbgacc ∨ s.m.fwa.level = 2) :
    exec (.dbgaccUpdate v) s = .next s := by
  have hno : ¬ (s.tap.ir = .dbgacc ∧ s.m.fwa.level ≠ 2) := fun hyes => h.elim (· hyes.1) hyes.2
  exact if_neg hno

theorem exec_dbgaccUpdate_awake {s : State} (v : BitVec 106) (hi : s.tap.ir = .dbgacc) (hl : s.m.fwa.level ≠ 2) (hd : s.m.dark = false) :
    exec (.dbgaccUpdate v) s =
      .next { s with m := s.m.dbgUpdate v, tap := { s.tap with dr := (s.m.dbgUpdate v).dbg.capture.setWidth 2696 } } := by
  show execDbgaccUpdate v s = _
  simp [execDbgaccUpdate, hi, hl, hd]

/-- After an update the port is as it was, or DBGACC is still selected (R615). -/
theorem exec_dbgaccUpdate_ir {s t : State} {v : BitVec 106} (h : exec (.dbgaccUpdate v) s = .next t) :
    t.tap = s.tap ∨ t.tap.ir = .dbgacc := by
  change execDbgaccUpdate v s = .next t at h
  unfold execDbgaccUpdate at h
  split at h
  next hsel => cases h; exact .inr hsel.1
  next => cases h; exact .inl rfl

/-- A command is one of the test access port's, or acts on the machine alone: its queue and its port stand as they were. -/
theorem exec_port_or_machine (i : Instr) (s : State) :
    (∃ v, i = .samplePreload v) ∨ i ∈ [Instr.extest, .idcode, .clamp, .highz, .dbgacc, .bypass, .testLogicReset] ∨
      (∃ v, i = .dbgaccUpdate v) ∨ ∃ m, exec i s = .next (s.on m) := by
  cases i
  case samplePreload v => exact .inl ⟨v, rfl⟩
  case extest | idcode | clamp | highz | dbgacc | bypass | testLogicReset => exact .inr (.inl (by simp))
  case dbgaccUpdate v => exact .inr (.inr (.inl ⟨v, rfl⟩))
  all_goals exact .inr (.inr (.inr ⟨_, rfl⟩))

/-! ## The test port as a whole (R6, R614 to R616, R618) -/

/-- At level 2 DBGACC acts as BYPASS (R615). -/
theorem exec_dbgacc_level2 {s : State} (h : s.m.fwa.level = 2) : exec .dbgacc s = .next { s with tap := s.tap.select .dbgacc 0 } := by
  show execDbgacc s = _
  simp [execDbgacc, State.onTap, h]

/-- Below level 2 DBGACC captures what the last access came to (R615). -/
theorem exec_dbgacc_below2 {s : State} (h : s.m.fwa.level ≠ 2) :
    exec .dbgacc s = .next { s with tap := s.tap.select .dbgacc (s.m.dbg.capture.setWidth 2696) } := by
  show execDbgacc s = _
  simp [execDbgacc, State.onTap, h]

/-- No command but the port's own changes the port (R607, R614). -/
theorem exec_tap_of_not_port {i : Instr} {s t : State} (h : exec i s = .next t) (hs : ∀ v, i ≠ .samplePreload v)
    (hn : i ∉ [Instr.extest, .idcode, .clamp, .highz, .dbgacc, .bypass, .testLogicReset]) (hu : ∀ v, i ≠ .dbgaccUpdate v) :
    t.tap = s.tap := by
  obtain ⟨v, hv⟩ | hi | ⟨v, hv⟩ | ⟨m, hm⟩ := exec_port_or_machine i s
  · exact absurd hv (hs v)
  · exact absurd hi hn
  · exact absurd hv (hu v)
  · cases hm.symm.trans h; rfl

/-- Settles O3: the selections by the definitions of R614, the accesses of DBGACC by what a debug read or write comes to, the frame by
the form of every other command. -/
theorem testPort : Obligations.TestPort := by
  unfold Obligations.TestPort
  refine ⟨fun s v u => ⟨rfl, rfl, rfl, rfl, rfl, rfl, rfl, exec_dbgacc_level2, exec_dbgacc_below2, exec_dbgaccUpdate_idle u, ?access, ?unaligned⟩,
    fun i s t h hs hn hu => exec_tap_of_not_port h hs hn hu⟩
  case access =>
    intro hi hl hd ha
    have hl2 : s.m.fwa.level ≠ 2 := by simp [hl]
    refine ⟨fun m1 b hw hr hb => ?read, fun hw hr hp => ⟨_, exec_dbgaccUpdate_awake u hi hl2 hd, ?write⟩,
      fun hw h0 => ⟨_, exec_dbgaccUpdate_awake u hi hl2 hd, ?identity⟩⟩
    case read =>
      rw [exec_dbgaccUpdate_awake u hi hl2 hd, Mach.dbgUpdate_read hw (Mach.dbgGet_stored hl ha hr hb)]
      rfl
    case write =>
      rw [Mach.dbgUpdate_write hw (Mach.dbgPut_granary _ hl ha hr hp)]
      exact ⟨rfl, rfl, rfl, rfl⟩
    case identity =>
      rw [Mach.dbgUpdate_read hw (h0 ▸ Mach.dbgGet_sysId hl)]
      exact ⟨rfl, rfl, rfl⟩
  case unaligned =>
    intro hi hl hd ha
    refine ⟨_, exec_dbgaccUpdate_awake u hi hl hd, ?_⟩
    rw [Mach.dbgUpdate_unaligned ha]
    obtain ⟨hok, hdata, hmem⟩ := (s.m.recordAccess false (u.extractLsb' 64 40) 0).raise_frame (show 32 ≤ 996 by decide)
    exact ⟨hok, hdata, hmem, fun hf => Mach.raise_counted (m := s.m.recordAccess false (u.extractLsb' 64 40) 0) (by decide) hf⟩

/-! ## The identity in the data register (R6, R614) -/

theorem Tap.identified_iff {t : Tap} : t.identified = true ↔ (t.ir = .idcode → t.dr = 0x1B96A0F3) := by
  by_cases h : t.ir = .idcode <;> simp [Tap.identified, h]

/-- A command of the port that is neither a preload nor an update selects an instruction; IDCODE captures the identity (R6). -/
theorem exec_selects {i : Instr} (h : i ∈ [Instr.extest, .idcode, .clamp, .highz, .dbgacc, .bypass, .testLogicReset]) (s : State) :
    ∃ ir dr, exec i s = .next { s with tap := s.tap.select ir dr } ∧ (ir = .idcode → dr = 0x1B96A0F3) := by
  simp only [List.mem_cons, List.not_mem_nil, or_false] at h
  rcases h with rfl | rfl | rfl | rfl | rfl | rfl | rfl
  · exact ⟨.extest, _, rfl, nofun⟩
  · exact ⟨.idcode, _, rfl, fun _ => rfl⟩
  · exact ⟨.clamp, _, rfl, nofun⟩
  · exact ⟨.highz, _, rfl, nofun⟩
  · exact ⟨.dbgacc, _, rfl, nofun⟩
  · exact ⟨.bypass, _, rfl, nofun⟩
  · exact ⟨.idcode, _, rfl, fun _ => rfl⟩

/-- Every command keeps the identity in the data register while IDCODE is selected: those of the port select another instruction or
capture the identity, an update of DBGACC is made under DBGACC, and the rest leave the port alone. -/
theorem exec_keeps_identified {i : Instr} {s t : State} (hs : s.tap.identified = true) (h : exec i s = .next t) :
    t.tap.identified = true := by
  obtain ⟨v, rfl⟩ | hi | ⟨v, rfl⟩ | ⟨m, hm⟩ := exec_port_or_machine i s
  · cases h; exact Tap.identified_iff.mpr nofun
  · obtain ⟨ir, dr, hsel, hid⟩ := exec_selects hi s
    cases hsel.symm.trans h; exact Tap.identified_iff.mpr hid
  · rcases exec_dbgaccUpdate_ir h with htap | hir
    · rwa [htap]
    · exact Tap.identified_iff.mpr (by simp [hir])
  · cases hm.symm.trans h; exact hs

/-- Settles O4: a step is a tick, which leaves the port alone, or a command from the front of the queue. -/
theorem tapIdentityKept : Obligations.TapIdentityKept := by
  unfold Obligations.TapIdentityKept
  intro s t hs h
  unfold step at h
  split at h
  next => cases h; exact hs
  next c rest _ => exact exec_keeps_identified (s := { s with pending := rest }) hs h

/-! ## The state right after reset -/

theorem reset_memoryCanonical : State.reset.memoryCanonical = true := rfl

theorem reset_booksKept : State.reset.m.booksKept = true := by decide +kernel

/-- Settles O5: each part of a safe state at reset. -/
theorem resetIsSafe : Obligations.ResetIsSafe := by
  unfold Obligations.ResetIsSafe State.safe
  rw [reset_memoryCanonical, reset_booksKept, show State.reset.tap.identified = true from Tap.identified_iff.mpr fun _ => rfl]
  rfl

end Sys2Proof.Machine
end

section
/-! PROOFS. Chapter 01 of the spec: a step of the block, the locks, the events of hardware sources with the alarms and their registers,
and the special registers of a thread. -/

namespace Sys2Proof.Machine

/-! ## Bits and fields of a register's word -/

theorem bit_or (v u : W64) (i : Nat) : bit (v ||| u) i = (bit v i || bit u i) := BitVec.getLsbD_or

theorem bit_at_ (lo n j : Nat) : bit (at_ lo n) j = (decide (j < 64) && decide (lo ≤ j) && n.testBit (j - lo)) := by
  simp only [bit, at_, BitVec.getLsbD_shiftLeft, BitVec.getLsbD_ofNat]
  by_cases hl : lo ≤ j
  · by_cases h : j < 64
    · simp [h, hl, Nat.not_lt.mpr hl, show j - lo < 64 by omega]
    · simp [h]
  · simp [hl, Nat.not_le.mp hl]

/-- A count that fits in k bits has no bit outside the k bits from its place on. -/
theorem bit_at_outside {lo n k j : Nat} (hn : n < 2 ^ k) (hj : j < lo ∨ lo + k ≤ j) : bit (at_ lo n) j = false := by
  rw [bit_at_]
  rcases hj with h | h
  · simp [Nat.not_le.mpr h]
  · have hbit : n.testBit (j - lo) = false := Nat.testBit_lt_two_pow (Nat.lt_of_lt_of_le hn (Nat.pow_le_pow_right (by decide) (by omega)))
    simp [hbit]

theorem flagAt_eq_at_ (i : Nat) (b : Bool) : flagAt i b = at_ i b.toNat := by
  cases b
  · simp [flagAt, at_]
  · rfl

theorem bit_flagAt_self {i : Nat} (hi : i < 64) (b : Bool) : bit (flagAt i b) i = b := by
  rw [flagAt_eq_at_, bit_at_]
  cases b <;> simp [hi]

theorem bit_flagAt_ne {i j : Nat} (b : Bool) (h : j ≠ i) : bit (flagAt i b) j = false := by
  rw [flagAt_eq_at_]
  exact bit_at_outside (k := 1) (Bool.toNat_lt b) (by omega)

theorem testBit_fld (v : W64) (hi lo i : Nat) : (fld v hi lo).testBit i = (decide (i < hi + 1 - lo) && bit v (lo + i)) := by
  rw [fld, Nat.testBit_mod_two_pow, Nat.testBit_div_two_pow, Nat.add_comm i lo]
  rfl

theorem fld_or (v u : W64) (hi lo : Nat) : fld (v ||| u) hi lo = fld v hi lo ||| fld u hi lo := by
  apply Nat.eq_of_testBit_eq
  intro i
  simp only [testBit_fld, Nat.testBit_or, bit_or, Bool.and_or_distrib_left]

theorem fld_flagAt_outside {i hi lo : Nat} (b : Bool) (h : i < lo ∨ hi < i) : fld (flagAt i b) hi lo = 0 := by
  apply Nat.eq_of_testBit_eq
  intro j
  rw [testBit_fld, Nat.zero_testBit]
  by_cases hj : j < hi + 1 - lo
  · simp [bit_flagAt_ne b (show lo + j ≠ i by omega)]
  · simp [hj]

/-- A count that fits is the field it is placed in. -/
theorem fld_at_self {hi lo n : Nat} (hn : n < 2 ^ (hi + 1 - lo)) (hhi : hi < 64) : fld (at_ lo n) hi lo = n := by
  apply Nat.eq_of_testBit_eq
  intro j
  rw [testBit_fld, bit_at_]
  by_cases hj : j < hi + 1 - lo
  · simp [hj, show lo + j < 64 by omega]
  · have hbit : n.testBit j = false := Nat.testBit_lt_two_pow (Nat.lt_of_lt_of_le hn (Nat.pow_le_pow_right (by decide) (by omega)))
    simp [hj, hbit]

/-- A count placed where a mask has no bit meets none of the mask. -/
theorem at_and_eq_zero {lo n k : Nat} {r : W64} (hn : n < 2 ^ k) (hr : r.extractLsb' lo k = 0) : at_ lo n &&& r = 0 := by
  apply BitVec.eq_of_getLsbD_eq
  intro j _
  rw [BitVec.getLsbD_and]
  by_cases hout : j < lo ∨ lo + k ≤ j
  · have hbit : (at_ lo n).getLsbD j = false := bit_at_outside hn hout
    simp [hbit]
  · have hmask : (r.extractLsb' lo k).getLsbD (j - lo) = false := by simp [hr]
    rw [BitVec.getLsbD_extractLsb', show lo + (j - lo) = j by omega, decide_eq_true (show j - lo < k by omega), Bool.true_and] at hmask
    simp [hmask]

theorem flagAt_and_eq_zero {i : Nat} {r : W64} (b : Bool) (hr : r.extractLsb' i 1 = 0) : flagAt i b &&& r = 0 := by
  rw [flagAt_eq_at_]
  exact at_and_eq_zero (Bool.toNat_lt b) hr

/-! ## One step (R32) -/

theorem Mach.tick_eq (m : Mach) :
    m.tick = { m with tb := if m.pwr.hotReset || m.pwr.noVin || m.lands.nresetLow then m.tb else m.tb + 1 } := by
  unfold Mach.tick
  split <;> rfl

theorem step_idle {s : State} (h : s.pending = []) : step s = .next (s.on s.m.tick) := by
  obtain ⟨m, tap, pending⟩ := s
  cases h
  rfl

theorem step_front (s : State) (c : Instr) (rest : List Instr) :
    step { s with pending := c :: rest } = exec c { s with pending := rest } := rfl

/-- Settles O1: a step with a command waiting, and one with none. -/
theorem stepRunsFront : Obligations.StepRunsFront := by
  unfold Obligations.StepRunsFront
  exact ⟨step_front, fun s h => ⟨_, step_idle h, rfl, h, s.m.tick_eq⟩⟩

/-! ## An instruction that has begun (R109) -/

section
variable {s : State} {c : Fin 72} {gd : BitVec 4} {k : Nat} {m1 : Mach} {i : Instr}

/-- An instruction that begins and is well formed comes to what its body comes to. -/
theorem State.insn_begun {body : Mach → Nat → Res} (h : s.m.begins c gd k m1) (hw : WellFormed i = true) :
    (s.act fun m => m.insn c gd i body) = .next (s.on ((body m1 k).close k ((encode i).getD 0))) := by
  obtain ⟨⟨hrun, hfetch, hbreak⟩, hguard⟩ := h
  rw [State.act_next, Mach.insn_body hrun hfetch hbreak hguard hw]
  rfl

/-- A body that changes its thread's registers alone completes with that change. -/
theorem Res.close_done_modThr (m : Mach) (k : Nat) (f : Thr → Thr) (word : W32) :
    (Res.done (m.modThr k f)).close k word = m.completes k f := Mach.modThr_modThr m k f fun t => t.retire.advance

/-- Such an instruction, once it begins, completes with its change. -/
theorem State.regBody_begun {f : Thr → Thr} (h : s.m.begins c gd k m1) (hw : WellFormed i = true) :
    (s.act fun m => m.insn c gd i (regBody f)) = .next (s.on (m1.completes k f)) := by
  rw [State.insn_begun h hw, regBody, Res.close_done_modThr]

/-! ## MFS and MTS (R33, R89 to R93, R150) -/

theorem wellFormed_mfs {rd n : BitVec 5} (h : n.toNat < 16) : WellFormed (.mfs c gd rd n) = true := decide_eq_true h

theorem exec_mfs_reads (h : s.m.begins c gd k m1) (rd : BitVec 5) {n : BitVec 5} (hn : n.toNat < 16)
    (hr : n.toNat < 8 ∨ (m1.thr k).ring = .r2) : exec (.mfs c gd rd n) s = .next (s.on (m1.gives k rd (m1.special k n.toNat))) := by
  have hno : ¬ (8 ≤ n.toNat ∧ (m1.thr k).ring ≠ .r2) := fun hyes => hr.elim (by omega) hyes.2
  refine (State.insn_begun h (wellFormed_mfs hn)).trans ?_
  rw [if_neg hno, Res.close_done_modThr]
  rfl

/-- wn0 to wn7 are absent in rings 0 and 1 (R93, R150). -/
theorem exec_mfs_absent (h : s.m.begins c gd k m1) (rd : BitVec 5) {n : BitVec 5} (hlo : 8 ≤ n.toNat) (hn : n.toNat < 16)
    (hr : (m1.thr k).ring ≠ .r2) :
    exec (.mfs c gd rd n) s = .next (s.on (m1.exception k ((encode (.mfs c gd rd n)).getD 0) 2 1 0)) := by
  refine (State.insn_begun h (wellFormed_mfs hn)).trans ?_
  rw [if_pos ⟨hlo, hr⟩]
  rfl

/-- Special registers from 8 up are the window registers. -/
theorem Mach.special_wn (m : Mach) (k : Nat) {n : Nat} (h : 8 ≤ n) : m.special k n = tget 0 (m.thr k).wn (n - 8) := by
  obtain ⟨j, rfl⟩ := Nat.exists_eq_add_of_le' h
  rfl

theorem exec_mts_pl (h : s.m.begins c gd k m1) (ra : BitVec 5) :
    exec (.mts c gd 0 ra) s = .next (s.on (m1.completes k fun t => { t with pl := t.gr ra })) :=
  State.regBody_begun h rfl

theorem exec_mts_ph (h : s.m.begins c gd k m1) (ra : BitVec 5) :
    exec (.mts c gd 1 ra) s = .next (s.on (m1.completes k fun t => { t with ph := t.gr ra })) :=
  State.regBody_begun h rfl

theorem exec_mts_xpc (h : s.m.begins c gd k m1) (ra : BitVec 5) :
    exec (.mts c gd 5 ra) s = .next (s.on (m1.completes k fun t => { t with xpc := pcOf (t.gr ra) })) :=
  State.regBody_begun h rfl

/-- The address that a program counter keeps of a value: its bits [39:2] (R92). -/
theorem pcAddr_pcOf (a : W64) : pcAddr (pcOf a) = a.toNat % 2 ^ 40 / 4 * 4 := by
  simp only [pcAddr, pcOf, BitVec.extractLsb'_toNat, Nat.shiftRight_eq_div_pow]
  omega

end

/-- Settles O21: MFS reads the register its number names, MTS writes the three that may be named. -/
theorem specialRegisters : Obligations.SpecialRegisters := by
  unfold Obligations.SpecialRegisters
  intro s c gd rd ra k m1 h
  have low : ∀ n : BitVec 5, n.toNat < 8 → exec (.mfs c gd rd n) s = .next (s.on (m1.gives k rd (m1.special k n.toNat))) :=
    fun n hn => exec_mfs_reads h rd (by omega) (.inl hn)
  refine ⟨low 0 (by decide), low 1 (by decide), low 2 (by decide), low 3 (by decide), low 4 (by decide), low 5 (by decide),
    low 6 (by decide), low 7 (by decide), fun n hlo hn => ?_, exec_mts_pl h ra, exec_mts_ph h ra, pcOf ((m1.thr k).gr ra), pcAddr_pcOf _, ?_⟩
  · split
    next hr => rw [← Mach.special_wn m1 k hlo]; exact exec_mfs_reads h rd hn (.inr hr)
    next hr => exact exec_mfs_absent h rd hlo hn hr
  · exact exec_mts_xpc h ra

/-! ## Locks (R42, R209 to R212) -/

section
variable {m : Mach} {w : Who} {n : Nat} {v : W64}

theorem Mach.lockRead_free (ho : (m.lock n).opens w = true) (hf : (m.lock n).owner = 0) :
    m.lockRead w n = (m.setLock n { m.lock n with owner := w.ident }, .value 0) := by simp [Mach.lockRead, ho, hf]

theorem Mach.lockRead_owned (ho : (m.lock n).opens w = true) (hf : (m.lock n).owner ≠ 0) :
    m.lockRead w n = (m, .value ((m.lock n).owner ||| flagAt 63 true)) := by
  simp only [Mach.lockRead, ho, Bool.not_true, Bool.false_eq_true, if_false, if_neg hf]

theorem Mach.lockRead_closed (ho : (m.lock n).opens w = false) : m.lockRead w n = (m, .denied 1) := by simp [Mach.lockRead, ho]

/-- The owner's write of its identity frees the lock (R209, R210). -/
theorem Mach.lockWrite_owner (ho : (m.lock n).opens w = true) (hw : (m.lock n).owner = w.ident) :
    m.lockWrite w n w.ident = (m.setLock n { m.lock n with owner := 0 }, .done) := by simp [Mach.lockWrite, ho, hw]

/-- Any other write is counted and raises event 885 (R212). -/
theorem Mach.lockWrite_foreign (ho : (m.lock n).opens w = true) (hw : (m.lock n).owner ≠ w.ident ∨ v ≠ (m.lock n).owner) :
    m.lockWrite w n v =
      (Mach.raise { m with mbx := { m.mbx with lockFault := sat (2 ^ 32 - 1) (m.mbx.lockFault + 1) } } 885, .done) := by
  have hno : ¬ ((m.lock n).owner = w.ident ∧ v = (m.lock n).owner) := fun hyes => hw.elim (· hyes.1) (· hyes.2)
  simp only [Mach.lockWrite, ho, Bool.not_true, Bool.false_eq_true, if_false, if_neg hno]

theorem Mach.lockWrite_closed (ho : (m.lock n).opens w = false) : m.lockWrite w n v = (m, .denied 2) := by simp [Mach.lockWrite, ho]

/-- A raise past the alarms leaves the mailbox block, with its locks, alone. -/
theorem Mach.raise_mbx (m : Mach) {e : Nat} (he : 32 ≤ e) : (m.raise e).mbx = m.mbx := by
  obtain ⟨sc, l, h⟩ := m.raise_onlySchAsserted he
  rw [h]

/-! ### The assignment of a lock (R211) -/

/-- The word written to MBX_LOCKCFG_n: an assignment, with or without FORCE (R211). -/
def lockCfgWord (assigned force : Bool) (slice : Nat) : W64 := flagAt 63 assigned ||| flagAt 62 force ||| at_ 48 slice

theorem lockCfgWord_force (a : Bool) (sl : Nat) : flagAt 63 a ||| at_ 48 sl ||| flagAt 62 true = lockCfgWord a true sl := by
  rw [lockCfgWord, BitVec.or_assoc, BitVec.or_comm (at_ 48 sl), ← BitVec.or_assoc]

theorem lockCfgWord_assign (a : Bool) (sl : Nat) : flagAt 63 a ||| at_ 48 sl = lockCfgWord a false sl := by
  simp [lockCfgWord, flagAt]

section
variable {a f : Bool} {sl : Nat} (h : sl < 256)
include h

theorem bit_lockCfgWord_assigned : bit (lockCfgWord a f sl) 63 = a := by
  rw [lockCfgWord, bit_or, bit_or, bit_flagAt_self (by decide), bit_flagAt_ne f (by decide), bit_at_outside (k := 8) h (by decide)]
  simp

theorem bit_lockCfgWord_force : bit (lockCfgWord a f sl) 62 = f := by
  rw [lockCfgWord, bit_or, bit_or, bit_flagAt_self (by decide), bit_flagAt_ne a (by decide), bit_at_outside (k := 8) h (by decide)]
  simp

theorem fld_lockCfgWord : fld (lockCfgWord a f sl) 55 48 = sl := by
  rw [lockCfgWord, fld_or, fld_or, fld_flagAt_outside a (by decide), fld_flagAt_outside f (by decide), fld_at_self h (by decide)]
  simp

theorem lockCfgWord_reserved : lockCfgWord a f sl &&& rsvBits [(63, 62), (55, 48), (32, 0)] = 0 := by
  rw [lockCfgWord, BitVec.and_or_distrib_right, BitVec.and_or_distrib_right, flagAt_and_eq_zero a (by decide),
    flagAt_and_eq_zero f (by decide), at_and_eq_zero (k := 8) h (by decide)]
  rfl

end

@[simp] theorem Mach.setLock_setLock (m : Mach) (n : Nat) (l l2 : Lock) : (m.setLock n l).setLock n l2 = m.setLock n l2 := by
  simp [Mach.setLock]

/-- A lock that is free, or that FORCE frees, takes an assignment (R211). -/
theorem Mach.lockCfg_free {a f : Bool} {sl : Nat} (hw : w.low = true) (hs : sl < 256) (hf : f = true ∨ (m.lock n).owner = 0) :
    m.lockCfg w n (lockCfgWord a f sl) = (m.setLock n { owner := 0, assigned := a, slice := sl }, .done) := by
  simp only [Mach.lockCfg, hw, bit_lockCfgWord_force hs, bit_lockCfgWord_assigned hs, fld_lockCfgWord hs]
  cases f with
  | true => simp [Mach.writeReg_done, lockCfgWord_reserved hs]
  | false =>
    have ho : (m.lock n).owner = 0 := hf.resolve_left nofun
    simp [Mach.writeReg_done, lockCfgWord_reserved hs, ho]

theorem Mach.lockCfg_denied (hw : w.low = false) : m.lockCfg w n v = (m, .denied 2) := by simp [Mach.lockCfg, hw]

end

theorem Who.low_of_ring2 {w : Who} (h : w.ring = .r2) : w.low = false := by simp [Who.low, h]

/-! ### The commands of the locks -/

/-- An access while the fabric is awake does to the machine what the register does, and answers its requester. -/
theorem State.access_eq {s : State} {f : Mach → Mach × RegOut} {m : Mach} {o : RegOut} (hr : s.m.resting = false) (h : f s.m = (m, o)) :
    s.access f = .next (s.on (m.answer o.answer)) := by
  rw [State.access_awake f hr, h]
  rfl

section
variable {s : State} {w : Who} {n : Fin 256} {v : W64} {m : Mach} {o : RegOut} (hr : s.m.resting = false)
include hr

theorem exec_lockRead (h : s.m.lockRead w n = (m, o)) : exec (.lockRead w n) s = .next (s.on (m.answer o.answer)) :=
  State.access_eq hr h

theorem exec_lockWrite (h : s.m.lockWrite w n v = (m, o)) : exec (.lockWrite w n v) s = .next (s.on (m.answer o.answer)) :=
  State.access_eq hr h

theorem exec_mbxLockcfgWrite (h : s.m.lockCfg w n v = (m, o)) : exec (.mbxLockcfgWrite w n v) s = .next (s.on (m.answer o.answer)) :=
  State.access_eq hr h

end

/-- FORCE is a write of the assignment with FORCE set (R211). -/
theorem exec_lockForce (w : Who) (n : Fin 256) (v : W64) (s : State) :
    exec (.lockForce w n v) s = exec (.mbxLockcfgWrite w n (v ||| flagAt 62 true)) s := rfl

/-- Settles O33: each access to a lock by what the lock register answers. -/
theorem locks : Obligations.Locks := by
  unfold Obligations.Locks
  intro s w n v sl hr hsl
  refine ⟨fun ho hf => exec_lockRead hr (Mach.lockRead_free ho hf), fun ho hf => exec_lockRead hr (Mach.lockRead_owned ho hf),
    fun ho hw => exec_lockWrite hr (Mach.lockWrite_owner ho hw),
    fun ho hw => ⟨_, exec_lockWrite hr (Mach.lockWrite_foreign ho hw), ?locks, ?count⟩,
    fun ho => ⟨exec_lockRead hr (Mach.lockRead_closed ho), exec_lockWrite hr (Mach.lockWrite_closed ho)⟩,
    fun hw => ⟨?same, fun hs => ⟨_, ?force, Mach.lock_setLock_self .., fun j hj => Mach.lock_setLock_ne _ _ hj⟩, fun ho => ?assign⟩,
    fun h2 => exec_mbxLockcfgWrite hr (Mach.lockCfg_denied (Who.low_of_ring2 h2))⟩
  case locks | count => rw [Mach.raise_mbx _ (by decide)]
  case same => rw [exec_lockForce, lockCfgWord_force, lockCfgWord]
  case force =>
    rw [exec_lockForce, lockCfgWord_force]
    exact exec_mbxLockcfgWrite hr (Mach.lockCfg_free hw hs (.inl rfl))
  case assign =>
    rw [lockCfgWord_assign, exec_mbxLockcfgWrite hr (Mach.lockCfg_free hw hsl (.inr ho)), ho]
    rfl

/-! ## A raise past the alarms (R193, R194, R607) -/

@[simp] theorem Mach.thr_noteDepth (m : Mach) (k j : Nat) : (m.noteDepth k).thr j = m.thr j := rfl
@[simp] theorem Mach.evt_noteDepth (m : Mach) (k e : Nat) : (m.noteDepth k).evt e = m.evt e := rfl

/-- Where the ready lists have the entries it needs, a thread becomes READY, and no event's count changes (R184, R191). -/
theorem Mach.makeReady_of_room {m : Mach} {k : Nat} (w : Wake) (h : m.entriesUsed + (m.thr k).groups.length ≤ m.sch.pool) :
    ∃ m1, m.makeReady k w = some m1 ∧
      m1.thr k = { m.thr k with state := .ready, curPrio := (m.thr k).prio, waitKind := .none, wake := w } ∧ ∀ e, m1.evt e = m.evt e := by
  refine ⟨_, if_pos h, ?_, fun e => rfl⟩
  rw [Mach.thr_noteDepth]
  exact Mach.thr_setThr_self m k _

section
variable {m : Mach} {e : Nat}

theorem Mach.raise_unfrozen (he : 32 ≤ e) (hf : m.dbg.frozen = false) : m.raise e = m.deliver e := by simp [Mach.raise_of_ge he, hf]

theorem Mach.raise_frozen (he : 32 ≤ e) (hf : m.dbg.frozen = true) :
    m.raise e = { m with dbg := { m.dbg with asserted := m.dbg.asserted ++ [e] } } := by simp [Mach.raise_of_ge he, hf]

/-- A thread that waits for the event in WAITWORK is made READY with its number (R193). -/
theorem Mach.deliver_of_waiting {m1 : Mach} (hb : (m.evt e).bound = true) (hw : m.inWaitwork (m.evt e).tcb = true)
    (h : m.makeReady (m.evt e).tcb (.event e) = some m1) : m.deliver e = m1 := by simp [Mach.deliver, Mach.acceptEv, hb, hw, h]

/-- An event that no thread waits for is counted (R193). -/
theorem Mach.deliver_of_hears (h : m.hears e) : m.deliver e = m.setEvt e { m.evt e with pend := (m.evt e).pend + 1 } := by
  rw [Mach.deliver, Mach.acceptEv_of_hears h]
  rfl

/-! ## A bit of PWR_ALARM_EVT (R600) -/

theorem Mach.alarmBit_pwr (m : Mach) (e : Nat) :
    (m.alarmBit e).pwr = { m.pwr with alarmEvt := m.pwr.alarmEvt ||| BitVec.ofNat 32 (2 ^ e) } := by
  rw [← Nat.one_shiftLeft]
  unfold Mach.alarmBit
  dsimp only
  split <;> rfl

theorem Mach.alarmBit_frame (m : Mach) (e : Nat) :
    (m.alarmBit e).mem = m.mem ∧ (m.alarmBit e).refLost = m.refLost ∧ (m.alarmBit e).lnk.lctl = m.lnk.lctl := by
  unfold Mach.alarmBit
  dsimp only
  split <;> exact ⟨rfl, rfl, rfl⟩

/-- An unmasked bit that newly sets is noted to the adapter. -/
theorem Mach.alarmBit_noted (hn : m.pwr.alarmEvt.getLsbD e = false) (hm : m.pwr.alertMask.getLsbD e = false) :
    (m.alarmBit e).lnk = (m.note 1 e).lnk := by
  simp only [Mach.alarmBit, hn, hm]
  rfl

/-- A masked bit, or one that stood already, is not. -/
theorem Mach.alarmBit_quiet (h : m.pwr.alarmEvt.getLsbD e = true ∨ m.pwr.alertMask.getLsbD e = true) : (m.alarmBit e).lnk = m.lnk := by
  have hq : (m.pwr.alarmEvt.getLsbD e || m.pwr.alertMask.getLsbD e) = true := by simpa using h
  simp only [Mach.alarmBit, hq, if_true]

/-- A raise of an alarm changes, beside its bit and its NOTE, the scheduler and what is asserted alone. -/
theorem Mach.raise_alarm (m : Mach) (he : e < 32) :
    ∃ sc l, m.raise e = { m.alarmBit e with sch := sc, dbg := { (m.alarmBit e).dbg with asserted := l } } := by
  simp only [Mach.raise, if_pos he]
  split
  · exact ⟨_, _, rfl⟩
  · obtain ⟨sc, h⟩ := Mach.deliver_onlySch (m.alarmBit e) e
    exact ⟨sc, (m.alarmBit e).dbg.asserted, h⟩

theorem Mach.raise_alarm_pwr (m : Mach) (he : e < 32) :
    (m.raise e).pwr = { m.pwr with alarmEvt := m.pwr.alarmEvt ||| BitVec.ofNat 32 (2 ^ e) } := by
  obtain ⟨sc, l, h⟩ := m.raise_alarm he
  rw [h, ← Mach.alarmBit_pwr]

theorem Mach.raise_alarm_lnk (m : Mach) (he : e < 32) : (m.raise e).lnk = (m.alarmBit e).lnk := by
  obtain ⟨sc, l, h⟩ := m.raise_alarm he
  rw [h]

theorem Mach.raise_alarm_frame (m : Mach) (he : e < 32) :
    (m.raise e).mem = m.mem ∧ (m.raise e).refLost = m.refLost ∧ (m.raise e).lnk.lctl = m.lnk.lctl := by
  obtain ⟨sc, l, h⟩ := m.raise_alarm he
  rw [h]
  exact m.alarmBit_frame e

end

/-! ## Integrity alarms and the registers of PWR (R597 to R600) -/

/-- The first alarm keeps its location; those of the classes 0 and 6 stop the fabric (R598). -/
theorem Mach.alarm_pwr_first {m : Mach} {cls : Nat} (loc : Nat) (hc : cls < 32) (hv : m.pwr.firstValid = false) :
    (m.alarm cls loc).pwr = { m.pwr with
      firstValid := true, firstCls := cls, firstLoc := BitVec.ofNat 40 loc, stop := m.pwr.stop || decide (cls = 0 ∨ cls = 6),
      alarmEvt := m.pwr.alarmEvt ||| BitVec.ofNat 32 (2 ^ cls) } := by
  by_cases hs : cls = 0 ∨ cls = 6 <;> simp [Mach.alarm, Mach.raise_alarm_pwr _ hc, hv, hs]

section
variable {m : Mach} {w : Who}

theorem Mach.alarmClear_low (v : W32) (hw : w.low = true) :
    m.alarmClear w (v.setWidth 64) = ({ m with pwr := { m.pwr with alarmEvt := m.pwr.alarmEvt &&& ~~~v } }, .done) := by
  have hunused : v.setWidth 64 &&& rsvBits [(63, 63), (31, 0)] = 0 := by
    rw [show v.setWidth 64 = at_ 0 v.toNat by simp [at_]]
    exact at_and_eq_zero v.isLt (by decide)
  rw [Mach.alarmClear, hw, Mach.writeReg_done _ _ _ _ _ _ hunused, BitVec.setWidth_setWidth_of_le v (by decide), BitVec.setWidth_eq]

theorem Mach.alarmClear_denied (v : W64) (hw : w.low = false) : m.alarmClear w v = (m, .denied 2) := by
  rw [Mach.alarmClear, hw, Mach.writeReg_denied]

/-- Ring 0 lifts a STOP (R599). -/
theorem Mach.alarmCtl_lift (hw : w.ring = .r0) (hs : m.pwr.stop = true) :
    m.alarmCtl w (at_ 60 1) = ({ m with pwr := { m.pwr with stop := false } }, .done) := by
  have hz : w.zero = true := by simp [Who.zero, hw]
  rw [Mach.alarmCtl, hz, hs, show (fld (at_ 60 1) 63 60 == 1 && true) = true by decide,
    Mach.writeReg_done _ _ _ _ _ _ (at_and_eq_zero (k := 1) (by decide) (by decide))]

theorem Mach.alarmCtl_denied (v : W64) (hw : w.ring ≠ .r0) : m.alarmCtl w v = (m, .denied 2) := by
  have hz : w.zero = false := by simp [Who.zero, hw]
  rw [Mach.alarmCtl, hz, Mach.writeReg_denied]

end

/-- A fabric that is awake is not held in reset. -/
theorem Mach.onLink_awake {m : Mach} (f : Mach → Mach) (h : m.resting = false) : m.onLink f = f m := by
  simp only [Mach.resting, Bool.or_eq_false_iff] at h
  obtain ⟨⟨⟨-, hhot⟩, hvin⟩, hreset⟩ := h
  simp [Mach.onLink, hhot, hvin, hreset]

/-- The machine once it knows that the reference is lost and has told its peer (R35, R217). -/
def Mach.toldLoss (m : Mach) : Mach := { m with refLost := true, lnk := { m.lnk with lctl := m.lnk.lctl ++ [at_ 0 5] } }

section
variable {s : State} {w : Who} {m : Mach} {o : RegOut} (hr : s.m.resting = false)
include hr

theorem exec_pwrAlarmEvtClear {v : W64} (h : s.m.alarmClear w v = (m, o)) :
    exec (.pwrAlarmEvtClear w v) s = .next (s.on (m.answer o.answer)) := State.access_eq hr h

theorem exec_alarmResume (h : s.m.alarmCtl w (at_ 60 1) = (m, o)) : exec (.alarmResume w) s = .next (s.on (m.answer o.answer)) :=
  State.access_eq hr h

/-- The loss of the resonator is told to the peer of an active link, and raises event 24 (R35, R217). -/
theorem exec_resonatorLoss_active (hl : s.m.refLost = false) (ha : s.m.lnk.state = .active) :
    exec .resonatorLoss s = .next (s.on (s.m.toldLoss.raise 24)) := by
  show execResonatorLoss s = _
  rw [execResonatorLoss, State.act_next, Mach.onLink_awake _ hr, if_neg (by simp [hl])]
  dsimp only
  rw [if_pos ha]
  rfl

end

/-- Settles O36: a raise past the alarms wakes, is counted or stays asserted; an alarm's bit and NOTE; each register access. -/
theorem eventsAndAlarms : Obligations.EventsAndAlarms := by
  unfold Obligations.EventsAndAlarms
  refine ⟨fun m e he hf => ?past, fun m e hf he => Mach.raise_frozen he hf, fun m e he => ?bit, fun m cls loc hc hv hloc => ?first,
    fun s w v hr => ?access⟩
  case past =>
    rw [Mach.raise_unfrozen he hf]
    refine ⟨fun hb hw hroom => ?_, fun hw hp => Mach.deliver_of_hears ⟨hw, hp⟩⟩
    obtain ⟨m1, hready, hthr, hevt⟩ := Mach.makeReady_of_room (.event e) hroom
    rw [Mach.deliver_of_waiting hb hw hready, hthr, hevt]
    exact ⟨rfl, rfl, rfl⟩
  case bit =>
    rw [Mach.raise_alarm_pwr m he, Mach.raise_alarm_lnk m he]
    obtain ⟨hmem, -, -⟩ := m.raise_alarm_frame he
    exact ⟨rfl, hmem, fun hn hm => by rw [Mach.alarmBit_noted hn hm], Mach.alarmBit_quiet⟩
  case first =>
    rw [Mach.alarm_pwr_first loc (by omega) hv]
    exact ⟨rfl, rfl, by simpa using hloc, fun h => by simp [h]⟩
  case access =>
    refine ⟨fun hw => exec_pwrAlarmEvtClear hr (Mach.alarmClear_low v hw),
      fun h2 => exec_pwrAlarmEvtClear hr (Mach.alarmClear_denied _ (Who.low_of_ring2 h2)),
      fun h0 hs => exec_alarmResume hr (Mach.alarmCtl_lift h0 hs), fun h0 => exec_alarmResume hr (Mach.alarmCtl_denied _ h0),
      fun hl ha => ⟨_, exec_resonatorLoss_active hr hl ha, ?_⟩⟩
    obtain ⟨-, hlost, hlctl⟩ := s.m.toldLoss.raise_alarm_frame (show 24 < 32 by decide)
    refine ⟨hlost, ?_, hlctl⟩
    rw [Mach.raise_alarm_pwr _ (by decide)]
    simp

end Sys2Proof.Machine
end

section
/-! PROOFS. Chapter 05 of the spec: the bindings of events, the timers and the observation windows. -/

namespace Sys2Proof.Machine

/-! ## The word of a binding (R192, R207) -/

theorem fld_at_outside {hi lo p n k : Nat} (hn : n < 2 ^ k) (h : hi < p ∨ p + k ≤ lo) : fld (at_ p n) hi lo = 0 := by
  apply Nat.eq_of_testBit_eq
  intro j
  rw [testBit_fld, Nat.zero_testBit]
  by_cases hj : j < hi + 1 - lo
  · simp [bit_at_outside hn (show lo + j < p ∨ p + k ≤ lo + j by omega)]
  · simp [hj]

/-- The word that binds to a thread, whose number stands from bit `lo` on. -/
def bindWord (lo tcb : Nat) : W64 := flagAt 63 true ||| at_ lo tcb

theorem bit_bindWord_bound (lo tcb : Nat) : bit (bindWord lo tcb) 63 = true := by
  rw [bindWord, bit_or, bit_flagAt_self (by decide), Bool.true_or]

section
variable {lo tcb : Nat} (h : tcb < 4096)
include h

theorem bit_bindWord_outside {j : Nat} (h63 : j ≠ 63) (hj : j < lo ∨ lo + 12 ≤ j) : bit (bindWord lo tcb) j = false := by
  rw [bindWord, bit_or, bit_flagAt_ne _ h63, bit_at_outside (k := 12) h hj, Bool.or_false]

theorem fld_bindWord_tcb (hlo : lo + 12 ≤ 63) : fld (bindWord lo tcb) (lo + 11) lo = tcb := by
  rw [bindWord, fld_or, fld_flagAt_outside _ (by omega), fld_at_self (by simpa [Nat.add_assoc] using h) (by omega), Nat.zero_or]

theorem fld_bindWord_outside {hi l : Nat} (h63 : hi < 63) (hl : hi < lo ∨ lo + 12 ≤ l) : fld (bindWord lo tcb) hi l = 0 := by
  rw [bindWord, fld_or, fld_flagAt_outside _ (.inr h63), fld_at_outside (k := 12) h hl, Nat.zero_or]

theorem bindWord_and_eq_zero {r : W64} (h63 : r.extractLsb' 63 1 = 0) (hr : r.extractLsb' lo 12 = 0) : bindWord lo tcb &&& r = 0 := by
  rw [bindWord, BitVec.and_or_distrib_right, flagAt_and_eq_zero _ h63, at_and_eq_zero (k := 12) h hr]
  rfl

end

/-! ## What the registers of the events, timers and windows do -/

theorem Mach.unfrozen_of_awake {m : Mach} (h : m.resting = false) : m.dbg.frozen = false := by
  simp only [Mach.resting, Bool.or_eq_false_iff] at h
  obtain ⟨⟨⟨hfrozen, -⟩, -⟩, -⟩ := h
  exact hfrozen

/-- A raise past the alarms in a fabric that is not frozen, of an event that no thread waits for, is counted and does no more (R193). -/
theorem Mach.raise_of_hears {m : Mach} {e : Nat} (he : 32 ≤ e) (hf : m.dbg.frozen = false) (h : m.hears e) :
    m.raise e = m.setEvt e { m.evt e with pend := (m.evt e).pend + 1 } := by
  rw [Mach.raise_unfrozen he hf, Mach.deliver_of_hears h]

@[simp] theorem Mach.tmr_setTmr_self (m : Mach) (k : Nat) (t : Tmr) : (m.setTmr k t).tmr k = t := tget_tset_self _ t _ k

/-- A write to a register without reserved bits, by a ring that may. -/
theorem Mach.writeReg_unreserved (m : Mach) (w : Who) (a : Nat) (v : W64) (f : Mach → Mach) :
    m.writeReg w a v 0 true true f = (f m, .done) := Mach.writeReg_done _ _ _ _ _ _ BitVec.and_zero

section
variable {m : Mach} {w : Who} {e k : Nat} {v : W64}

/-- Ring 0 binds an event that no mailbox owns to a block that is not of a slice; the count stays (R192). -/
theorem Mach.evtWrite_bind {tcb : Nat} (hw : w.ring = .r0) (hn : tcb < 4096) (ht : tcb < m.tcbTotal) (hs : (m.thr tcb).state ≠ .free)
    (ho : (m.thr tcb).ofSlice = false) (he : e < 800 ∨ 863 < e) :
    m.evtWrite w e (bindWord 32 tcb) =
      (m.setEvt e { bound := true, deleg := false, assigned := false, slice := 0, tcb := tcb, pend := (m.evt e).pend }, .done) := by
  have hz : w.zero = true := by simp [Who.zero, hw]
  have htcb : fld (bindWord 32 tcb) 43 32 = tcb := fld_bindWord_tcb hn (by decide)
  have hslice : fld (bindWord 32 tcb) 55 48 = 0 := fld_bindWord_outside hn (by decide) (by decide)
  have hdeleg : bit (bindWord 32 tcb) 62 = false := bit_bindWord_outside hn (by decide) (by decide)
  have hassigned : bit (bindWord 32 tcb) 61 = false := bit_bindWord_outside hn (by decide) (by decide)
  have hrsv : bindWord 32 tcb &&& rsvBits [(63, 61), (55, 48), (43, 32), (15, 0)] = 0 := bindWord_and_eq_zero hn (by decide) (by decide)
  have hfree : ((m.thr tcb).state == .free) = false := by simpa using hs
  have hin : decide (m.tcbTotal ≤ tcb) = false := decide_eq_false (Nat.not_le.mpr ht)
  have hrange : decide (800 ≤ e ∧ e ≤ 863) = false := decide_eq_false (by omega)
  simp only [Mach.evtWrite, hz, htcb, hslice, bit_bindWord_bound, hdeleg, hassigned, hfree, hin, ho, hrange]
  exact Mach.writeReg_done _ _ _ _ _ _ hrsv

/-- Another ring writes only an event that is delegated to it (R192). -/
theorem Mach.evtWrite_denied (hw : w.ring ≠ .r0) (hd : (m.evt e).deleg = false) : m.evtWrite w e v = (m, .denied 2) := by
  have hmay : (w.zero || w.ring == .r1 && (m.evt e).deleg) = false := by simp [Who.zero, hw, hd]
  rw [Mach.evtWrite, hmay, Mach.writeReg_denied]

/-- A timer that is not due, or has fired, stands (R198). -/
theorem Mach.fireTmr_idle (h : m.tb < (m.tmr k).cmp.toNat ∨ (m.tmr k).armed = false) : m.fireTmr k = m := by
  have hno : ((m.tmr k).armed && decide ((m.tmr k).cmp.toNat ≤ m.tb)) = false := by
    rcases h with h | h
    · simp [Nat.not_le.mpr h]
    · simp [h]
  simp [Mach.fireTmr, hno]

/-- A timer that is due and armed counts its event once, and is armed no longer (R198). -/
theorem Mach.fireTmr_due (ha : (m.tmr k).armed = true) (hc : (m.tmr k).cmp.toNat ≤ m.tb) (hf : m.dbg.frozen = false)
    (h : m.hears (864 + k)) :
    m.fireTmr k = (m.setTmr k { m.tmr k with armed := false }).setEvt (864 + k)
      { m.evt (864 + k) with pend := (m.evt (864 + k)).pend + 1 } := by
  have hraise : m.fireTmr k = (m.setTmr k { m.tmr k with armed := false }).raise (864 + k) := by simp [Mach.fireTmr, ha, hc]
  rw [hraise]
  exact Mach.raise_of_hears (by omega) hf h

/-- A write of a time to come arms the timer (R198). -/
theorem Mach.tmrWrite_ahead (hw : w.low = true) (hv : m.tb < v.toNat) :
    m.tmrWrite w k v = (m.setTmr k { cmp := v, armed := true }, .done) := by
  have hidle : (m.setTmr k { cmp := v, armed := true }).fireTmr k = m.setTmr k { cmp := v, armed := true } :=
    Mach.fireTmr_idle (.inl (by rw [Mach.tmr_setTmr_self]; exact hv))
  rw [Mach.tmrWrite, hw, Mach.writeReg_unreserved, hidle]

/-- A write to either end of the window opens a new window, whose counts start at zero (R199). -/
theorem Mach.obsWrite_opens (hw : w.low = true) (isEnd : Bool) :
    ∃ m2 : Mach, m.obsWrite w isEnd v = (m2, .done) ∧ m2.sch.obsOpen = true ∧ m2.sch.obsDone = false ∧
      (if isEnd then m2.sch.obsEnd = v ∧ m2.sch.obsStart = m.sch.obsStart else m2.sch.obsStart = v ∧ m2.sch.obsEnd = m.sch.obsEnd) ∧
      ∀ c, tget 0 m2.sch.busy c = 0 := by
  rw [Mach.obsWrite, hw, Mach.writeReg_unreserved]
  refine ⟨_, rfl, rfl, rfl, ?_, fun c => rfl⟩
  cases isEnd
  · exact ⟨rfl, rfl⟩
  · exact ⟨rfl, rfl⟩

/-- The machine once its observation window is over (R199). -/
def Mach.closedWindow (m : Mach) : Mach := { m with sch := { m.sch with obsDone := true, obsOpen := false } }

/-- The end of a window counts event 884 once and touches no register of the window again (R199). -/
theorem Mach.closedWindow_raise (hf : m.dbg.frozen = false) (h : m.hears 884) :
    m.closedWindow.raise 884 = m.closedWindow.setEvt 884 { m.evt 884 with pend := (m.evt 884).pend + 1 } :=
  Mach.raise_of_hears (by decide) hf h

end

/-! ## Their commands -/

section
variable {s : State} {w : Who} {k : Fin 16} {v : W64} {m : Mach} {o : RegOut} (hr : s.m.resting = false)
include hr

theorem exec_schEvtWrite {e : Fin 1024} (h : s.m.evtWrite w e v = (m, o)) : exec (.schEvtWrite w e v) s = .next (s.on (m.answer o.answer)) :=
  State.access_eq hr h

theorem exec_schTmrWrite (h : s.m.tmrWrite w k v = (m, o)) : exec (.schTmrWrite w k v) s = .next (s.on (m.answer o.answer)) :=
  State.access_eq hr h

theorem exec_obsWindowWrite {isEnd : Bool} (h : s.m.obsWrite w isEnd v = (m, o)) :
    exec (.obsWindowWrite w isEnd v) s = .next (s.on (m.answer o.answer)) := State.access_eq hr h

theorem exec_timerExpire : exec (.timerExpire k) s = .next (s.on (s.m.fireTmr k)) := by
  show execTimerExpire k s = _
  rw [execTimerExpire, State.act_next, Mach.fabric_awake _ hr]
  rfl

theorem exec_obsWindowClose_due (ho : s.m.sch.obsOpen = true) (ht : s.m.sch.obsEnd.toNat ≤ s.m.tb) :
    exec .obsWindowClose s = .next (s.on (s.m.closedWindow.raise 884)) := by
  show execObsWindowClose s = _
  rw [execObsWindowClose, State.act_next, Mach.fabric_awake _ hr, if_pos (by simp [ho, ht])]
  rfl

end

/-- Settles O31: each register access by what its register answers, and each raise by its count. -/
theorem eventsTimersWindows : Obligations.EventsTimersWindows := by
  unfold Obligations.EventsTimersWindows
  intro s w e k v tcb hr
  have hf : s.m.dbg.frozen = false := Mach.unfrozen_of_awake hr
  refine ⟨fun hw hn ht hs ho he => exec_schEvtWrite hr (Mach.evtWrite_bind hw hn ht hs ho he),
    fun hw hd => exec_schEvtWrite hr (Mach.evtWrite_denied hw hd), fun hw hv => exec_schTmrWrite hr (Mach.tmrWrite_ahead hw hv),
    fun h => ?idle, fun ha hc hwait hroom => ?due, fun hw isEnd => ?window, fun ho ht hwait hroom => ?close⟩
  case idle =>
    rw [exec_timerExpire hr, Mach.fireTmr_idle h]
    rfl
  case due =>
    rw [exec_timerExpire hr, Mach.fireTmr_due ha hc hf ⟨hwait, hroom⟩]
  case window =>
    obtain ⟨m2, hwrite, hopened⟩ := Mach.obsWrite_opens (m := s.m) (v := v) hw isEnd
    exact ⟨m2, exec_obsWindowWrite hr hwrite, hopened⟩
  case close =>
    refine ⟨_, exec_obsWindowClose_due hr ho ht, ?_⟩
    rw [Mach.closedWindow_raise hf ⟨hwait, hroom⟩, Mach.evt_setEvt_self]
    exact ⟨rfl, rfl, rfl⟩

end Sys2Proof.Machine
end

section
/-! PROOFS. Chapter 09 of the spec: landings and map updates, folds and reclaim, the journal, checkpoints and page loads. -/

namespace Sys2Proof.Machine

/-! ## What leaves the map and the outstanding commands alone -/

/-- m2 has the media translation and the outstanding commands of m. -/
def Mach.keepsMedia (m m2 : Mach) : Prop := m2.map = m.map ∧ m2.hq.cmds = m.hq.cmds

theorem Mach.keepsMedia.trans {m m1 m2 : Mach} (h1 : m.keepsMedia m1) (h2 : m1.keepsMedia m2) : m.keepsMedia m2 :=
  ⟨h2.1.trans h1.1, h2.2.trans h1.2⟩

theorem Mach.alarmBit_keepsMedia (m : Mach) (e : Nat) : m.keepsMedia (m.alarmBit e) := by
  unfold Mach.alarmBit
  dsimp only
  split <;> exact ⟨rfl, rfl⟩

theorem Mach.raise_keepsMedia (m : Mach) (e : Nat) : m.keepsMedia (m.raise e) := by
  by_cases he : e < 32
  · obtain ⟨sc, l, h⟩ := m.raise_alarm he
    rw [h]
    exact m.alarmBit_keepsMedia e
  · obtain ⟨sc, l, h⟩ := m.raise_onlySchAsserted (Nat.not_lt.mp he)
    rw [h]
    exact ⟨rfl, rfl⟩

theorem Mach.alarm_keepsMedia (m : Mach) (cls loc : Nat) : m.keepsMedia (m.alarm cls loc) :=
  Mach.keepsMedia.trans ⟨rfl, rfl⟩ (Mach.raise_keepsMedia _ cls)

theorem Mach.ledMod_keepsMedia (m : Mach) (k : Nat) (f : Ledger → Ledger) : m.keepsMedia (m.ledMod k f) := by
  unfold Mach.ledMod
  dsimp only
  split
  · exact ⟨rfl, rfl⟩
  · exact Mach.keepsMedia.trans ⟨rfl, rfl⟩ (Mach.alarm_keepsMedia _ _ _)

theorem Mach.give_keepsMedia (m : Mach) (k n : Nat) : m.keepsMedia (m.give k n) := m.ledMod_keepsMedia k _

theorem Mach.fromTransit_keepsMedia (m : Mach) (k n item : Nat) : m.keepsMedia (m.fromTransit k n item) := m.ledMod_keepsMedia k _

theorem Mach.charge_keepsMedia (m : Mach) (o : Option Nat) (f : Nat → Nat) : m.keepsMedia (m.charge o f) := by
  cases o <;> exact ⟨rfl, rfl⟩

theorem Mach.release_keepsMedia (m : Mach) (k : Nat) : m.keepsMedia (m.release k) := by
  unfold Mach.release
  dsimp only
  split
  · refine .trans ?_ (Mach.fromTransit_keepsMedia _ _ _ _)
    exact .trans ⟨rfl, rfl⟩ (Mach.charge_keepsMedia _ _ _)
  · refine .trans ?_ (Mach.give_keepsMedia _ _ _)
    exact .trans ⟨rfl, rfl⟩ (Mach.charge_keepsMedia _ _ _)

theorem Mach.releaseAll_keepsMedia (m : Mach) (l : List Nat) : m.keepsMedia (m.releaseAll l) := by
  induction l generalizing m with
  | nil => exact ⟨rfl, rfl⟩
  | cons k l ih =>
    have hstep : m.keepsMedia (if (m.buf k).state = .free then m else m.release k) := by
      split
      · exact ⟨rfl, rfl⟩
      · exact m.release_keepsMedia k
    exact hstep.trans (ih _)

theorem Mach.dropOvl_keepsMedia (m : Mach) (p : Ovl → Bool) : m.keepsMedia (m.dropOvl p) := by
  unfold Mach.dropOvl
  dsimp only
  split
  · exact ⟨rfl, rfl⟩
  · refine .trans ?_ (Mach.give_keepsMedia _ _ _)
    exact ⟨rfl, rfl⟩

theorem Mach.settle_of_no_cmds {m : Mach} (h : m.hq.cmds = []) : m.settle = m := by simp [Mach.settle, h, Mach.settleFor]

/-! ## A journal record (R330, R333) -/

section
variable (m : Mach) (typ ns slice : Nat) (w1 w2 w3 : W64)

/-- A record that fills no page and closes none opens the page it stands in. -/
theorem Mach.jrec_opens (hj : m.map.jopen = []) (ht : urgentType typ = false) :
    m.jrec typ ns slice w1 w2 w3 = { m with map := { m.map with
      jsn := m.map.jsn + 1, jopenAt := m.tb,
      jopen := [{ jsn := m.map.jsn + 1, typ := typ, ns := ns, slice := slice, w1 := w1, w2 := w2, w3 := w3 }] } } := by
  simp [Mach.jrec, hj, ht]

/-- A record takes the next JSN and changes nothing beside the pages that are not durable yet. -/
theorem Mach.jrec_onlyPages : ∃ jo t jq,
    m.jrec typ ns slice w1 w2 w3 =
      { m with map := { m.map with jsn := m.map.jsn + 1, jopen := jo, jopenAt := t, jqueue := jq } } := by
  unfold Mach.jrec Mach.closeJournal
  dsimp only
  split
  · split <;> exact ⟨_, _, _, rfl⟩
  · exact ⟨_, _, _, rfl⟩

end


/-! ## Entries, sets and free values -/

/-- A changed entry touches the entries of its kind and the live slots alone. -/
theorem Mach.setEntry_onlyEntries (m : Mach) (fine : Bool) (k : Nat) (e : W64) : ∃ co fi li,
    m.setEntry fine k e = { m with map := { m.map with coarse := co, fine := fi, live := li } } := by
  cases fine <;> exact ⟨_, _, _, rfl⟩

@[simp] theorem Mach.entry_setEntry_self (m : Mach) (fine : Bool) (k : Nat) (e : W64) : (m.setEntry fine k e).entry fine k = e := by
  cases fine <;> exact tget_tset_self _ e _ k

/-- A set that changes its state stands in the table with it, and a SET record is appended (R331). -/
theorem Mach.setState_onlySet {m : Mach} {n : Nat} {s : MSet} (st : SetState) (h : m.mset? n = some s) : ∃ j jo t jq,
    m.setState n st = { m with map := { m.map with sets := tset m.map.sets n { s with state := st },
                                                   jsn := j, jopen := jo, jopenAt := t, jqueue := jq } } := by
  unfold Mach.setState
  rw [h]
  dsimp only
  obtain ⟨jo, t, jq, hrec⟩ := Mach.jrec_onlyPages (m.setMset n { s with state := st }) 9 0 0
    (at_ 60 st.code ||| at_ 58 s.cls ||| flagAt 57 s.fine ||| flagAt 56 s.landing ||| at_ 0 n) 0 0
  exact ⟨_, jo, t, jq, hrec⟩

@[simp] theorem Mach.mset?_setMset_self (m : Mach) (n : Nat) (s : MSet) : (m.setMset n s).mset? n = some s := tget?_tset_self _ n s

theorem Mach.draw_onlyFree (m : Mach) (n : Nat) : ∃ f, (m.draw n).2 = { m with free := f } := by
  unfold Mach.draw
  split <;> exact ⟨_, rfl⟩

/-! ## Landing and map update (R317, R318) -/

section
variable {m : Mach} {g : WGrain} {tag x : Nat}

theorem Mach.landed_absent (h : ∀ g ∈ m.map.work, g.tag ≠ tag ∨ g.grain ≠ x) : m.landed tag x = m := by
  have hno : (m.map.work.findIdx? fun g => g.tag == tag && g.grain == x && g.issued && !g.landed && g.kind != .zero) = none := by
    rw [List.findIdx?_eq_none_iff]
    intro g hg
    rcases h g hg with h | h <;> simp [h]
  rw [Mach.landed, hno]

theorem Mach.landed_issued (hw : m.map.work = [g]) (ht : g.tag = tag) (hx : g.grain = x) (hi : g.issued = true) (hl : g.landed = false)
    (hk : g.kind ≠ .zero) :
    m.landed tag x = if m.allClosed g then
      Mach.settle { m with map := { m.map with work := [{ g with landed := true }], imgs := m.map.imgs ++ [g.img] } } else m := by
  cases hclosed : m.allClosed g <;> simp [Mach.landed, Mach.putGrain, hw, ht, hx, hi, hl, hk, hclosed]

/-- The write of a grain that has made its map update is forgotten (R70, R318). -/
theorem Mach.returnWrite_mapped (hw : m.map.work = [g]) (hm : g.mapped = true) (hk : g.kind ≠ .zero) (hc : m.hq.cmds = []) :
    (m.returnWrite g.asn).map = { m.map with work := [] } ∧ (m.returnWrite g.asn).hq.cmds = [] := by
  have hkeep : [g].filter (fun h => h.asn != g.asn || (h.kind == .zero && decide (m.map.jsnDone < h.jsn))) = [] := by simp [hk]
  rw [Mach.returnWrite, if_neg (by simp [hc, hw, hm]), hw]
  dsimp only
  rw [hkeep]
  obtain ⟨hmap, hcmds⟩ := Mach.dropOvl_keepsMedia { m with map := { m.map with work := [] } } fun o => o.asn == g.asn && o.kind == .write
  exact ⟨hmap, hcmds.trans hc⟩

/-- The entry of an image behind a landing header in page d, at byte off of it (R311, R315). -/
def bufferedEntry (d off : Nat) : W64 := entryWord 5 { die := keyDie d, block := keyBlock d, page := d % 4096, off := off } 0

/-- The record of a map update to an entry (R331). -/
def WGrain.landRec (g : WGrain) (jsn : Nat) (e : W64) : JRec :=
  { jsn := jsn, typ := 1, ns := g.ns, slice := g.slice, w1 := w64 g.grain, w2 := e, w3 := w64 g.lsn }

/-- The machine once the entry of its only grain in work, behind a landing header in page d, is updated and recorded (R318 step 5). -/
def Mach.buffered (m : Mach) (g : WGrain) (d : Nat) : Mach := { m with map := { m.map with
  coarse := tset m.map.coarse (coarseKey g.slice g.ns g.grain) (bufferedEntry d g.off), jsn := m.map.jsn + 1, jopenAt := m.tb,
  jopen := [g.landRec (m.map.jsn + 1) (bufferedEntry d g.off)],
  work := [{ g with mapped := true, jsn := m.map.jsn + 1, bufs := [] }] } }

theorem Mach.mapUpdate_eq {st : MSet} {d : Nat} (hw : m.map.work = [g]) (hk : g.kind ≠ .zero) (hf : g.fine = false)
    (hj : m.map.jopen = []) (hs : m.mset? g.set = some st) (hd : st.key g.stripe g.pos = some d) :
    m.mapUpdate 0 g = (((m.buffered g d).releaseAll g.bufs).returnWrite g.asn).settle := by
  have hrec := Mach.jrec_opens (m.setEntry false (coarseKey g.slice g.ns g.grain) (bufferedEntry d g.off)) 1 g.ns g.slice (w64 g.grain)
    (bufferedEntry d g.off) (w64 g.lsn) hj rfl
  rw [bufferedEntry] at hrec
  cases hkind : g.kind with
  | zero => exact absurd hkind hk
  | packed | raw =>
    simp only [Mach.mapUpdate, hs, hd, hf, hkind, mapKey, Option.bind_some, Bool.false_eq_true, reduceCtorEq, if_false, hrec]
    simp [Mach.putGrain, hw, Mach.setEntry, Mach.buffered, WGrain.landRec, bufferedEntry, hf, hkind]

theorem Mach.mapUpdate_buffered {st : MSet} {d : Nat} (hw : m.map.work = [g]) (hk : g.kind ≠ .zero) (hf : g.fine = false)
    (hc : m.hq.cmds = []) (hj : m.map.jopen = []) (hs : m.mset? g.set = some st) (hd : st.key g.stripe g.pos = some d) :
    (m.mapUpdate 0 g).map = { (m.buffered g d).map with work := [] } := by
  obtain ⟨hmap, hcmds⟩ := (m.buffered g d).releaseAll_keepsMedia g.bufs
  obtain ⟨hret, hnone⟩ := Mach.returnWrite_mapped (g := { g with mapped := true, jsn := m.map.jsn + 1, bufs := [] })
    (congrArg Map.work hmap) rfl hk (hcmds.trans hc)
  rw [Mach.mapUpdate_eq hw hk hf hj hs hd, Mach.settle_of_no_cmds hnone, hret, hmap]

/-- A landed grain, the only one in work, makes its map update once it may (R271, R318). -/
theorem Mach.tryMap_landed (hw : m.map.work = [g]) (hl : g.landed = true) (hm : g.mapped = false) :
    m.tryMap g.asn g.grain = if m.mayMap g then m.mapUpdate 0 g else m := by
  simp [Mach.tryMap, hw, hl, hm]

end

/-! ## Fold (R323, R324) -/

section
variable {m : Mach} {v : Move}

/-- A copy that has reached its commit needs no more pages (R324). -/
theorem Mach.padMoves_committed (p : Move → Bool) (hv : m.map.moves = [v]) (hc : m.committed v = true) : m.padMoves p = m := by
  simp only [Mach.padMoves, hv, List.filter_cons, List.filter_nil]
  split
  · simp only [List.foldl_cons, List.foldl_nil, hc, if_true]
    split <;> rfl
  · rfl

/-- The record of type typ of a move (R331). -/
def Move.record (v : Move) (jsn typ : Nat) : JRec :=
  { jsn := jsn, typ := typ, ns := (unkey v.fine v.key).1 % 16, slice := (unkey v.fine v.key).1 / 16, w1 := w64 (unkey v.fine v.key).2,
    w2 := v.new_, w3 := v.old }

/-- The only move takes its record, and waits until it is durable (R323 step 3). -/
theorem Mach.recordMoves_committed {p : Move → Bool} {typ : Nat} (hv : m.map.moves = [v]) (hp : p v = true) (hn : v.jsn = 0)
    (hc : m.committed v = true) (hj : m.map.jopen = []) (ht : urgentType typ = false) :
    m.recordMoves typ p = { m with map := { m.map with
      jsn := m.map.jsn + 1, jopenAt := m.tb, jopen := [v.record (m.map.jsn + 1) typ], moves := [{ v with jsn := m.map.jsn + 1 }] } } := by
  simp [Mach.recordMoves, hv, hp, hn, hc, Mach.jrec_opens, hj, ht, Move.record]

/-- Is a move the fold of an image (R323)? -/
def Move.folds (v : Move) (g : Img) : Bool := v.fine == g.fine && v.key == mapKey g.fine g.slice g.ns g.grain && v.from_ == g.set

theorem Mach.fold_held {x : Nat} (h : m.mediaHeld = true) : m.fold x = m := by simp [Mach.fold, h]

theorem Mach.fold_absent {x : Nat} (h : ∀ g ∈ m.map.imgs, g.lsn ≠ x) : m.fold x = m := by
  have hno : (m.map.imgs.find? fun g => g.lsn == x) = none := by simpa using h
  rw [Mach.fold, hno]
  split <;> rfl

/-- An image that is being copied goes on to its commit and its record. -/
theorem Mach.fold_copied {g : Img} (h : m.mediaHeld = false) (hg : m.map.imgs = [g]) (hv : m.map.moves = [v]) (hm : v.folds g = true) :
    m.fold g.lsn = (m.padMoves fun v => v.folds g).recordMoves 4 fun v => v.folds g := by
  have hmine : m.map.moves.any (fun v => v.folds g) = true := by simp [hv, hm]
  simp only [Mach.fold, h, hg, List.find?_cons, beq_self_eq_true]
  exact if_pos hmine

end

/-! ## Reclaim (R325, R327) -/

/-- The erase of a block of set n enters its die's queue, unless it stands there. -/
def Mach.queueErase (n : Nat) (m : Mach) (b : Nat × Nat) : Mach :=
  if m.erasing b.1 b.2 then m
  else m.enqueue b.1 { kind := .erase, cls := 4, block := b.2, page := 0, slice := none, at_ := m.tb, why := .erase n }

theorem Mach.queueErases_eq {m : Mach} {n : Nat} {s : MSet} (h : m.mset? n = some s) :
    m.queueErases n = s.toErase.foldl (Mach.queueErase n) m := by
  rw [Mach.queueErases, h]
  rfl

theorem Mach.queueErase_map (n : Nat) (m : Mach) (b : Nat × Nat) : (m.queueErase n b).map = m.map := by
  unfold Mach.queueErase
  split <;> rfl

/-- What is queued for a die stays queued. -/
theorem Mach.erasing_enqueue {m : Mach} {d b : Nat} (e : Nat) (op : DieOp) (h : m.erasing d b = true) : (m.enqueue e op).erasing d b = true := by
  by_cases hd : d = e
  · subst hd
    simp only [Mach.erasing, Mach.enqueue, Mach.die_setDie_self, List.any_append, Bool.or_eq_true] at h ⊢
    rcases h with (hqueue | hcur) | hsusp
    · exact .inl (.inl (.inl hqueue))
    · exact .inl (.inr hcur)
    · exact .inr hsusp
  · simpa only [Mach.erasing, Mach.enqueue, Mach.die_setDie_ne _ _ hd] using h

theorem Mach.erasing_queueErase {m : Mach} {d b : Nat} (n : Nat) (c : Nat × Nat) (h : m.erasing d b = true) :
    (m.queueErase n c).erasing d b = true := by
  unfold Mach.queueErase
  split
  · exact h
  · exact Mach.erasing_enqueue _ _ h

theorem Mach.erasing_queueErase_self (n : Nat) (m : Mach) (b : Nat × Nat) : (m.queueErase n b).erasing b.1 b.2 = true := by
  unfold Mach.queueErase
  split
  next h => exact h
  next => simp [Mach.erasing, Mach.enqueue]

/-- Once the erases of a list of blocks are queued, each of them stands in its die's queue, and the map is as it was. -/
theorem Mach.foldl_queueErase (n : Nat) (l : List (Nat × Nat)) (m : Mach) :
    (l.foldl (Mach.queueErase n) m).map = m.map ∧ (∀ d b, m.erasing d b = true → (l.foldl (Mach.queueErase n) m).erasing d b = true) ∧
      ∀ b ∈ l, (l.foldl (Mach.queueErase n) m).erasing b.1 b.2 = true := by
  induction l generalizing m with
  | nil => exact ⟨rfl, fun _ _ h => h, nofun⟩
  | cons c l ih =>
    obtain ⟨hmap, hkeeps, hqueued⟩ := ih (m.queueErase n c)
    refine ⟨hmap.trans (m.queueErase_map n c), fun d b h => hkeeps d b (Mach.erasing_queueErase n c h), fun b hb => ?_⟩
    rcases List.mem_cons.mp hb with rfl | hb
    · exact hkeeps _ _ (Mach.erasing_queueErase_self n m b)
    · exact hqueued b hb

section
variable {m : Mach} {n : Nat} {s : MSet}

theorem Mach.reclaim_held (h : m.mediaHeld = true) : m.reclaim n = m := by simp [Mach.reclaim, h]

theorem Mach.reclaim_absent (h : m.mset? n = none) : m.reclaim n = m := by simp [Mach.reclaim, h]

theorem Mach.reclaim_idle (hs : m.mset? n = some s) (h : s.state = .open_ ∨ s.state = .free ∨ s.state = .retired) : m.reclaim n = m := by
  rcases h with h | h | h <;> simp [Mach.reclaim, hs, h]

theorem Mach.reclaim_landing (hh : m.mediaHeld = false) (hs : m.mset? n = some s) (hc : s.state = .closed) (hl : s.landing = true) :
    m.reclaim n = m.eraseSet n := by simp [Mach.reclaim, hh, hs, hc, hl]

theorem Mach.eraseSet_refused (hs : m.mset? n = some s) (h : m.mayErase n s = false) : m.eraseSet n = m := by simp [Mach.eraseSet, hs, h]

/-- A set that may be erased, with blocks on dies in service, is ERASING, its images are forgotten, and the erases of those blocks are
queued (R325, R327 step 4). -/
theorem Mach.eraseSet_begins {left : List (Nat × Nat)} (hs : m.mset? n = some s) (h : m.mayErase n s = true)
    (hleft : s.members.filter (fun b => m.dieUp b.1) = left) (hne : left ≠ []) :
    (m.eraseSet n).mset? n = some { s with state := .erasing, victim := true, toErase := left } ∧
      (∀ b ∈ left, (m.eraseSet n).erasing b.1 b.2 = true) ∧ (m.eraseSet n).map.imgs = m.map.imgs.filter fun g => g.set != n := by
  let s1 : MSet := { s with victim := true, toErase := left }
  let m1 : Mach := Mach.setMset { m with map := { m.map with imgs := m.map.imgs.filter fun g => g.set != n } } n s1
  have hset : m1.mset? n = some s1 := Mach.mset?_setMset_self _ n s1
  obtain ⟨j, jo, t, jq, hstate⟩ := Mach.setState_onlySet .erasing hset
  have herasing : (m1.setState n .erasing).mset? n = some { s1 with state := .erasing } := by
    rw [hstate]
    exact tget?_tset_self _ n _
  have hbegins : m.eraseSet n = left.foldl (Mach.queueErase n) (m1.setState n .erasing) := by
    rw [Mach.eraseSet, hs]
    simp only [h, hleft, List.isEmpty_eq_false_iff.mpr hne]
    exact Mach.queueErases_eq herasing
  obtain ⟨hmap, -, hqueued⟩ := Mach.foldl_queueErase n left (m1.setState n .erasing)
  rw [hbegins]
  refine ⟨?_, hqueued, ?_⟩
  · rw [Mach.mset?, hmap]
    exact herasing
  · rw [hmap, hstate]
    rfl

end

/-! ## The journal (R333) -/

section
variable {m : Mach} {pg : JPage} {rest : List JPage} {v : Move}

theorem Mach.journalTimeout_early (h : m.map.jopen = [] ∨ m.tb < m.map.jopenAt + 5000000) : m.journalTimeout = m := by
  have hno : (!m.map.jopen.isEmpty && decide (m.map.jopenAt + 5000000 ≤ m.tb)) = false := by
    rcases h with h | h
    · simp [h]
    · simp [Nat.not_le.mpr h]
  simp [Mach.journalTimeout, hno]

theorem Mach.journalTimeout_due (hj : m.map.jopen ≠ []) (ht : m.map.jopenAt + 5000000 ≤ m.tb) :
    m.journalTimeout = { m with map := { m.map with
      jopen := [], jqueue := m.map.jqueue ++ [{ recs := m.map.jopen, lwm := m.lowWater, stamp := m.tb, boot := m.map.boot }] } } := by
  simp [Mach.journalTimeout, Mach.closeJournal, hj, ht]

theorem Mach.journalDurable_held (h : m.mediaHeld = true) : m.journalDurable = m := by
  unfold Mach.journalDurable
  split
  · rfl
  · simp [h]

theorem Mach.journalDurable_empty (h : m.map.jqueue = []) : m.journalDurable = m := by simp [Mach.journalDurable, h]

/-- The machine once page pg, which stood before the rest of the line, is durable, and its records have not taken effect yet. -/
def Mach.durable (m : Mach) (pg : JPage) (rest : List JPage) : Mach := { m with map := { m.map with
  jqueue := rest, jdone := m.map.jdone ++ [{ pg with stamp := m.tb }], jsnDone := (pg.recs.getLast?.map (·.jsn)).getD m.map.jsnDone,
  lwm := pg.lwm } }

/-- A durable page does what its records do, and grains of zeros may be forgotten with it. -/
theorem Mach.journalDurable_head (h : m.mediaHeld = false) (hq : m.map.jqueue = pg :: rest)
    (hc : (m.durable pg rest).applyDurable.hq.cmds = []) : ∃ wk,
    m.journalDurable = { (m.durable pg rest).applyDurable with map := { (m.durable pg rest).applyDurable.map with work := wk } } := by
  have hsettle : (m.durable pg rest).applyDurable.settle = (m.durable pg rest).applyDurable := Mach.settle_of_no_cmds hc
  rw [Mach.durable] at hsettle
  simp only [Mach.journalDurable, hq, h, Bool.false_eq_true, if_false, hsettle]
  exact ⟨_, rfl⟩

/-- A move whose entry still equals OLD takes effect (R323 step 4, R327 step 3). -/
def Mach.applyMove (m : Mach) (v : Move) : Mach := if m.entry v.fine v.key = v.old then m.setEntry v.fine v.key v.new_ else m

/-- The moves with durable records take effect. -/
def Mach.applyMoves (m : Mach) : Mach :=
  (m.map.moves.filter fun v => v.jsn != 0 && decide (v.jsn ≤ m.map.jsnDone)).foldl Mach.applyMove
    { m with map := { m.map with moves := m.map.moves.filter fun v => !(v.jsn != 0 && decide (v.jsn ≤ m.map.jsnDone)) } }

/-- A move changes entries alone. -/
theorem Mach.applyMove_onlyEntries (m : Mach) (v : Move) : ∃ co fi li,
    m.applyMove v = { m with map := { m.map with coarse := co, fine := fi, live := li } } := by
  unfold Mach.applyMove
  split
  · exact m.setEntry_onlyEntries ..
  · exact ⟨_, _, _, rfl⟩

/-- The checkpoints with durable records take effect. -/
def Mach.applyCkpts (m : Mach) : Mach :=
  (m.map.ckptWait.filter fun c => decide (c.jsn ≤ m.map.jsnDone)).foldl
    (fun m c =>
      if c.seg then { m with map := { m.map with ckptSegs := tset m.map.ckptSegs c.key c.ckpt } }
      else { m with map := { m.map with ckpts := tset m.map.ckpts c.key c.ckpt } })
    { m with map := { m.map with ckptWait := m.map.ckptWait.filter fun c => decide (m.map.jsnDone < c.jsn) } }

theorem Mach.applyDurable_eq (m : Mach) : m.applyDurable = m.applyMoves.applyCkpts := rfl

theorem Mach.applyCkpts_none (h : m.map.ckptWait = []) : m.applyCkpts = m := by
  have hsame : { m with map := { m.map with ckptWait := [] } } = m := by rw [← h]
  simp only [Mach.applyCkpts, h, List.filter_nil, List.foldl_nil]
  exact hsame

theorem Mach.applyMoves_none (hv : m.map.moves = []) : m.applyMoves = { m with map := { m.map with moves := [] } } := by
  simp [Mach.applyMoves, hv]

theorem Mach.applyMoves_one (hv : m.map.moves = [v]) (hn : v.jsn ≠ 0) (hd : v.jsn ≤ m.map.jsnDone) :
    m.applyMoves = Mach.applyMove { m with map := { m.map with moves := [] } } v := by
  simp [Mach.applyMoves, hv, hn, hd]

/-- What a move makes of its own entry. -/
theorem Mach.entry_applyMove (m : Mach) (v : Move) :
    (m.applyMove v).entry v.fine v.key = if m.entry v.fine v.key = v.old then v.new_ else m.entry v.fine v.key := by
  unfold Mach.applyMove
  split
  · exact m.entry_setEntry_self ..
  · rfl

section
variable (hh : m.mediaHeld = false) (hq : m.map.jqueue = pg :: rest) (hw : m.map.ckptWait = []) (hc : m.hq.cmds = [])
include hh hq hw hc

theorem Mach.journalDurable_no_moves (hv : m.map.moves = []) : ∃ wk,
    m.journalDurable.map = { (m.durable pg rest).map with moves := [], work := wk } := by
  have happly : (m.durable pg rest).applyDurable = { m.durable pg rest with map := { (m.durable pg rest).map with moves := [] } } := by
    rw [Mach.applyDurable_eq, Mach.applyMoves_none (m := m.durable pg rest) hv]
    exact Mach.applyCkpts_none hw
  obtain ⟨wk, hdurable⟩ := Mach.journalDurable_head hh hq (by rw [happly]; exact hc)
  exact ⟨wk, by rw [hdurable, happly]⟩

theorem Mach.journalDurable_move (hv : m.map.moves = [v]) (hn : v.jsn ≠ 0) (hd : v.jsn ≤ (m.durable pg rest).map.jsnDone) :
    m.journalDurable.map.moves = [] ∧ m.journalDurable.map.jsnDone = (m.durable pg rest).map.jsnDone ∧
      m.journalDurable.entry v.fine v.key = if m.entry v.fine v.key = v.old then v.new_ else m.entry v.fine v.key := by
  let m1 : Mach := { m.durable pg rest with map := { (m.durable pg rest).map with moves := [] } }
  obtain ⟨co, fi, li, hmove⟩ := m1.applyMove_onlyEntries v
  have happly : (m.durable pg rest).applyDurable = m1.applyMove v := by
    rw [Mach.applyDurable_eq, Mach.applyMoves_one (m := m.durable pg rest) hv hn hd]
    exact Mach.applyCkpts_none (by rw [hmove]; exact hw)
  obtain ⟨wk, hdurable⟩ := Mach.journalDurable_head hh hq (by rw [happly, hmove]; exact hc)
  rw [hdurable, happly]
  refine ⟨?_, ?_, m1.entry_applyMove v⟩ <;> rw [hmove]

end

end

/-! ## Checkpoints (R334) -/

section
variable {m : Mach} {key : Nat}

theorem Mach.checkpoint_held {seg : Bool} (h : m.mediaHeld = true) : m.checkpoint seg key = m := by simp [Mach.checkpoint, h]

theorem Mach.checkpoint_cold (h : m.map.cold.contains key = true) : m.checkpoint false key = m := by
  have hno : (m.mediaHeld || m.map.cold.contains key) = true := by rw [h, Bool.or_true]
  simp only [Mach.checkpoint, Bool.false_eq_true, if_false, hno, if_true]

/-- With no move waiting, the checkpoint of a loaded map page covers every record there is, and waits for its own. -/
theorem Mach.checkpoint_warm (h : m.mediaHeld = false) (hc : m.map.cold.contains key = false) (hv : m.map.moves = []) :
    (m.checkpoint false key).map.jsn = m.map.jsn + 1 ∧ (m.checkpoint false key).map.ckptWait = m.map.ckptWait ++
      [{ jsn := m.map.jsn + 1, seg := false, key := key,
         ckpt := { entries := m.map.coarse.filter fun e => e.1 / 256 == key, jsn := m.map.jsn } }] := by
  have hgo : (m.mediaHeld || m.map.cold.contains key) = false := by rw [h, hc]; rfl
  obtain ⟨f, hdraw⟩ := m.draw_onlyFree (2 ^ 61)
  simp only [Mach.checkpoint, hgo, hv, hdraw, Bool.false_eq_true, if_false, List.filter_nil, List.foldl_nil]
  obtain ⟨jo, t, jq, hrec⟩ := Mach.jrec_onlyPages { m with free := f } 7 (key / (2 ^ 30 / 256) % 16) (key / (2 ^ 30 / 256) / 16)
    (w64 (key % (2 ^ 30 / 256))) (at_ 61 2 ||| w64 (m.draw (2 ^ 61)).1) (w64 m.map.jsn)
  rw [hrec]
  exact ⟨rfl, rfl⟩

end

/-! ## Loads of map pages (R312, R338) -/

/-- Media translation once map page key is loaded: neither it nor an entry of it waits any more (R338). -/
def Map.warmed (p : Map) (key : Nat) : Map :=
  { p with cold := p.cold.filter (· != key), bad := p.bad.filter fun k => k / 256 != key }

section
variable {m : Mach} {key : Nat}

/-- The map alarm stops the fabric and sets bit 0 of PWR_ALARM_EVT (R598, R600). -/
theorem Mach.alarm_map_pwr (m : Mach) (loc : Nat) : (m.alarm 0 loc).pwr.stop = true ∧ (m.alarm 0 loc).pwr.alarmEvt.getLsbD 0 = true := by
  simp [Mach.alarm, Mach.raise_alarm_pwr _ (show 0 < 32 by decide)]

/-- An entry of the map page that breaks the rules of its class (R312). -/
def Map.malformed (p : Map) (key : Nat) : Option (Nat × W64) := p.coarse.find? fun e => e.1 / 256 == key && !entryOk e.2

theorem Map.malformed_none {p : Map} (h : ∀ e ∈ p.coarse, e.1 / 256 = key → entryOk e.2 = true) : p.malformed key = none := by
  rw [Map.malformed, List.find?_eq_none]
  intro e he hodd
  simp only [Bool.and_eq_true, beq_iff_eq, Bool.not_eq_true'] at hodd
  obtain ⟨hkey, hbad⟩ := hodd
  simp [h e he hkey] at hbad

theorem Map.malformed_only {p : Map} {e : Nat × W64} (he : p.coarse = [e]) (hkey : e.1 / 256 = key) (hbad : entryOk e.2 = false) :
    p.malformed key = some e := by simp [Map.malformed, he, hkey, hbad]

/-- While other pages are cold, a load does no more than look for an entry that breaks its rules (R312). -/
theorem Mach.loadPage_more (hc : (m.map.warmed key).cold ≠ []) :
    m.loadPage false key = (m.map.malformed key).elim { m with map := m.map.warmed key } fun e =>
      Mach.alarm { m with map := m.map.warmed key } 0 e.1 := by
  have hcold : (m.map.cold.filter (· != key)).isEmpty = false := List.isEmpty_eq_false_iff.mpr hc
  simp only [Mach.loadPage, Bool.false_eq_true, if_false, hcold, Bool.and_false, Bool.false_and]
  cases hodd : m.map.malformed key with
  | none | some e =>
    rw [Map.malformed] at hodd
    rw [hodd]
    rfl

/-- The machine once no page is cold any more. -/
def Mach.allWarm (m : Mach) (key : Nat) : Mach := { m with map := { m.map.warmed key with resident := true } }

/-- The last load of a mounted module makes the map resident (R338). -/
theorem Mach.loadPage_last (hok : ∀ e ∈ m.map.coarse, e.1 / 256 = key → entryOk e.2 = true) (hlast : (m.map.warmed key).cold = [])
    (hcold : m.map.cold ≠ []) (hseg : m.map.coldSeg = []) (hmount : m.map.mount = 5) :
    m.loadPage false key = ((m.allWarm key).raise 1013).bootStep 9 := by
  have hnone : m.map.cold.filter (· != key) = [] := hlast
  have hodd := Map.malformed_none hok
  rw [Map.malformed] at hodd
  simp [Mach.loadPage, hodd, hnone, hcold, hseg, hmount, Mach.allWarm, Map.warmed]

theorem Mach.bootStep_map (m : Mach) (n : Nat) : (m.bootStep n).map = m.map := by
  unfold Mach.bootStep
  split <;> rfl

theorem Mach.evt_bootStep (m : Mach) (n e : Nat) : (m.bootStep n).evt e = m.evt e := by
  unfold Mach.bootStep
  split <;> rfl

end

/-! ## The commands of media translation -/

/-- An effect of the fabric, while it is awake. -/
theorem State.fabric_awake {s : State} (hr : s.m.resting = false) (f : Mach → Mach) :
    (s.act fun m => m.fabric f) = .next (s.on (f s.m)) := by
  rw [State.act_next, Mach.fabric_awake f hr]
  rfl

/-- A command that leaves the machine as it was leaves the state. -/
theorem exec_unchanged {i : Instr} {s : State} {m : Mach} (h : exec i s = .next (s.on m)) (hm : m = s.m) : exec i s = .next s := by
  rw [h, hm]
  rfl

section
variable {s : State} (hr : s.m.resting = false)
include hr

theorem exec_landingComplete (tag : Fin 65536) (x : Nat) : exec (.landingComplete tag x) s = .next (s.on (s.m.landed tag x)) :=
  State.fabric_awake hr _

theorem exec_landingStripeTimeout (n : Nat) : exec (.landingStripeTimeout n) s = .next (s.on (s.m.stripeTimeout n)) :=
  State.fabric_awake hr _

theorem exec_foldCommit (x : Nat) : exec (.foldCommit x) s = .next (s.on (s.m.fold x)) := State.fabric_awake hr _

theorem exec_reclaim (n : Nat) : exec (.reclaim n) s = .next (s.on (s.m.reclaim n)) := State.fabric_awake hr _

theorem exec_journalPageTimeout : exec .journalPageTimeout s = .next (s.on s.m.journalTimeout) := State.fabric_awake hr _

theorem exec_journalPageDurable : exec .journalPageDurable s = .next (s.on s.m.journalDurable) := State.fabric_awake hr _

theorem exec_checkpoint (seg : Bool) (key : Nat) : exec (.checkpoint seg key) s = .next (s.on (s.m.checkpoint seg key)) :=
  State.fabric_awake hr _

theorem exec_mapPageLoad (seg : Bool) (key : Nat) : exec (.mapPageLoad seg key) s = .next (s.on (s.m.loadPage seg key)) :=
  State.fabric_awake hr _

variable {tag : Fin 65536} {x : Nat}

theorem exec_mapUpdate_absent (h : ∀ g ∈ s.m.map.work, g.tag ≠ tag ∨ g.grain ≠ x) : exec (.mapUpdate tag x) s = .next s := by
  have hno : (s.m.map.work.find? fun g => g.tag == tag.val && g.grain == x && !g.mapped && (g.landed || g.kind == .zero)) = none := by
    rw [List.find?_eq_none]
    intro g hg
    rcases h g hg with h | h <;> simp [h]
  refine exec_unchanged (State.fabric_awake hr _) ?_
  rw [hno]

theorem exec_mapUpdate_landed {g : WGrain} (hw : s.m.map.work = [g]) (ht : g.tag = tag) (hl : g.landed = true) (hm : g.mapped = false) :
    exec (.mapUpdate tag g.grain) s = .next (s.on (if s.m.mayMap g then s.m.mapUpdate 0 g else s.m)) := by
  refine (State.fabric_awake hr _).trans ?_
  simp only [hw, List.find?_cons, ht, hl, hm, beq_self_eq_true, Bool.not_false, Bool.true_or, Bool.and_self]
  rw [Mach.tryMap_landed hw hl hm]

end

/-- Settles O50: each command by what its operation does to the map, in the order of a grain's way from its landing to its fold, of the
journal, and of a map page. -/
theorem mediaTranslation : Obligations.MediaTranslation := by
  unfold Obligations.MediaTranslation
  intro s tag x n key hr
  refine ⟨fun g hw ht hx hi hl hk => ?landing,
    fun h => ⟨exec_unchanged (exec_landingComplete hr tag x) (Mach.landed_absent h), exec_mapUpdate_absent hr h⟩,
    fun g hw ht hx hl hm hk hf => ?update, fun st hs => ?stripe, fun hh => ?held, fun hh => ?awake,
    fun h => exec_unchanged (exec_journalPageTimeout hr) (Mach.journalTimeout_early h), fun hj ht => ?timeout, ?load⟩
  case landing =>
    rw [exec_landingComplete hr, Mach.landed_issued hw ht hx hi hl hk]
    refine ⟨fun hopen => by rw [hopen]; rfl, fun hclosed hc => ?_⟩
    rw [if_pos hclosed, Mach.settle_of_no_cmds]
    exact hc
  case update =>
    subst hx
    rw [exec_mapUpdate_landed hr hw ht hl hm]
    refine ⟨fun hno => by rw [hno]; rfl, fun st d hmay hc hj hs hd => ⟨_, by rw [if_pos hmay], ?_⟩⟩
    have hmap := Mach.mapUpdate_buffered hw hk hf hc hj hs hd
    unfold Mach.entry
    rw [hmap]
    exact ⟨tget_tset_self .., fun j hne => tget_tset_ne _ _ _ hne, rfl, rfl, rfl⟩
  case stripe =>
    rw [exec_landingStripeTimeout hr, Mach.stripeTimeout, hs]
    dsimp only
    split <;> rfl
  case held =>
    exact ⟨exec_unchanged (exec_foldCommit hr x) (Mach.fold_held hh), exec_unchanged (exec_reclaim hr n) (Mach.reclaim_held hh),
      exec_unchanged (exec_journalPageDurable hr) (Mach.journalDurable_held hh),
      exec_unchanged (exec_checkpoint hr false key) (Mach.checkpoint_held hh),
      exec_unchanged (exec_checkpoint hr true key) (Mach.checkpoint_held hh)⟩
  case awake =>
    refine ⟨fun h => exec_unchanged (exec_foldCommit hr x) (Mach.fold_absent h), fun g v hg hx hv hf hk hfrom hn hc hj => ?fold,
      fun hs => exec_unchanged (exec_reclaim hr n) (Mach.reclaim_absent hs), fun st hs hclosed hl => ?erase,
      fun st hs h => exec_unchanged (exec_reclaim hr n) (Mach.reclaim_idle hs h),
      fun hq => exec_unchanged (exec_journalPageDurable hr) (Mach.journalDurable_empty hq), fun pg rest hq hw hc => ?durable,
      fun h => exec_unchanged (exec_checkpoint hr false key) (Mach.checkpoint_cold h), fun hcold hv => ?checkpoint⟩
    case fold =>
      subst hx
      have hmine : v.folds g = true := by simp [Move.folds, hf, hk, hfrom]
      refine ⟨_, v.record (s.m.map.jsn + 1) 4, exec_foldCommit hr g.lsn, ?_⟩
      rw [Mach.fold_copied hh hg hv hmine, Mach.padMoves_committed _ hv hc, Mach.recordMoves_committed hv hmine hn hc hj rfl]
      exact ⟨rfl, rfl, rfl, rfl, rfl, rfl, rfl, rfl⟩
    case erase =>
      rw [exec_reclaim hr, Mach.reclaim_landing hh hs hclosed hl]
      exact ⟨fun h => by rw [Mach.eraseSet_refused hs h]; rfl, fun h hne => ⟨_, rfl, Mach.eraseSet_begins hs h rfl hne⟩⟩
    case durable =>
      rw [exec_journalPageDurable hr]
      refine ⟨fun hv => ⟨_, rfl, ?_⟩, fun v hv hn hd => ⟨_, rfl, ?_⟩⟩
      · obtain ⟨wk, hmap⟩ := Mach.journalDurable_no_moves hh hq hw hc hv
        rw [hmap]
        exact ⟨rfl, rfl, rfl, rfl, rfl⟩
      · obtain ⟨hmoves, hjsn, hentry⟩ := Mach.journalDurable_move hh hq hw hc hv hn hd
        exact ⟨hmoves, hjsn, fun h => by rw [hentry, if_pos h], fun h => by rw [hentry, if_neg h]⟩
    case checkpoint =>
      obtain ⟨hjsn, hwait⟩ := Mach.checkpoint_warm hh hcold hv
      exact ⟨_, _, exec_checkpoint hr false key, hwait, hjsn, rfl, rfl, rfl, rfl, rfl⟩
  case timeout => rw [exec_journalPageTimeout hr, Mach.journalTimeout_due hj ht]
  case load =>
    refine ⟨fun hok => ⟨fun hmore => ?more, fun hlast hcold hseg hmount => ?last⟩, fun e he hkey hbad hmore => ?bad⟩
    case more =>
      rw [exec_mapPageLoad hr, Mach.loadPage_more hmore, Map.malformed_none hok]
      rfl
    case last =>
      refine ⟨_, exec_mapPageLoad hr false key, ?_⟩
      rw [Mach.loadPage_last hok hlast hcold hseg hmount, Mach.bootStep_map, Mach.counted, Mach.evt_bootStep]
      exact ⟨(Mach.raise_keepsMedia _ 1013).1, Mach.raise_counted (m := s.m.allWarm key) (by decide) (Mach.unfrozen_of_awake hr)⟩
    case bad =>
      refine ⟨_, exec_mapPageLoad hr false key, ?_⟩
      rw [Mach.loadPage_more hmore, Map.malformed_only he hkey hbad]
      exact ⟨(Mach.alarm_keepsMedia _ 0 _).1, Mach.alarm_map_pwr _ _⟩

end Sys2Proof.Machine
end

section
/-! PROOFS. Chapter 11 of the spec: the jobs of the Groat engines. -/

namespace Sys2Proof.Machine

/-! ## The job that a row runs (R409, R415) -/

/-- A row runs the job at the head of its context when the copy of its descriptor agrees with its complement and no rule is broken. -/
theorem State.act_runJob {s : State} {p ctx fn : Nat} {j : Job} (f : Mach → Job → Mach) (hr : s.m.resting = false)
    (hrun : s.m.toRun p ctx fn = some j) (hdesc : j.descOk = true) (hbad : s.m.jobBad p j = none) :
    (s.act fun m => m.runJob p ctx fn f) = .next (s.on (f s.m j)) := by
  unfold Mach.runJob
  rw [State.fabric_awake hr, hrun]
  simp [hdesc, hbad]

/-! ## COMPRESS (R406, R410 to R412) -/

/-- The blocks of a source that was read as a whole hold all of it. -/
theorem take_ceilDiv {l : List Byte} {n : Nat} (h : l.length = n) : l.take (4096 * ceilDiv n 4096) = l := by
  refine List.take_of_length_le ?_
  unfold ceilDiv
  omega

section
variable {m m1 m2 : Mach} {p off : Nat} {j : Job} {got : List Byte}

theorem Mach.compressJob_wait (fault : Option Nat) (hread : m.engRead j (j.f 0x10 8) (j.f 0x20 4) = (m1, got, .wait)) :
    m.compressJob p fault j = m := by
  unfold Mach.compressJob
  simp only [hread, if_true]

section
variable {g : GParam} (hg : GParam.of (j.f 0x28 1) (j.f 0x2A 2) (j.f 0x2C 2) = g)
include hg

/-- A source that fails: the pieces of the blocks before the failing one stand written (R415). -/
theorem Mach.compressJob_sourceFails {x : Nat} (hread : m.engRead j (j.f 0x10 8) (j.f 0x20 4) = (m1, got, .bad x))
    (hlen : got.length < j.f 0x20 4)
    (hwrite : m1.engWrite j (j.f 0x18 8) (j.f 0x24 4)
      ((g.pieces (got.take (4096 * (got.length / 4096)))).take (got.length / 4096)) 0 = (m2, off, none)) :
    m.compressJob p none j = m2.jobRan p { j with read := got.length } 0x0409 x := by
  simp [Mach.compressJob, hg, hread, Nat.ne_of_lt hlen, hwrite]

variable (hread : m.engRead j (j.f 0x10 8) (j.f 0x20 4) = (m1, got, .ok ())) (hlen : got.length = j.f 0x20 4)
include hread hlen

theorem Mach.compressJob_whole (hwrite : m1.engWrite j (j.f 0x18 8) (j.f 0x24 4) (g.pieces got) 0 = (m2, off, none)) :
    m.compressJob p none j = m2.jobRan p { j with read := j.f 0x20 4 } 0 off := by
  simp [Mach.compressJob, hg, hread, hlen, take_ceilDiv hlen, hwrite]

theorem Mach.compressJob_pastLimit (hwrite : m1.engWrite j (j.f 0x18 8) (j.f 0x24 4) (g.pieces got) 0 = (m2, off, some none)) :
    m.compressJob p none j = m2.jobRan p { j with read := j.f 0x20 4 } 0x0400 off := by
  simp [Mach.compressJob, hg, hread, hlen, take_ceilDiv hlen, hwrite]

/-- A block that differs ends the job with the pieces before it written, and it is the last block that was read (R412). -/
theorem Mach.compressJob_blockDiffers {i : Nat} {b : List Byte} (hb : (g.blocks got.toArray)[i]? = some b) (hchk : checkedBlock b = true)
    (hwrite : m1.engWrite j (j.f 0x18 8) (j.f 0x24 4) ((g.pieces got).take i) 0 = (m2, off, none)) :
    m.compressJob p (some i) j =
      m2.jobRan p { j with read := Nat.min (j.f 0x20 4) (4096 * (i + 1)) } 0x0401 (4096 * i) := by
  have hstop : (g.blocks got.toArray)[i]?.any checkedBlock = true := by rw [hb, Option.any_some, hchk]
  simp [Mach.compressJob, hg, hread, hlen, take_ceilDiv hlen, hstop, hwrite]

end

/-! ## DECOMPRESS and VALIDATE (R410, R413, R414) -/

section
variable (hread : m.engRead j (j.f 0x10 8) (j.f 0x20 4) = (m1, got, .ok ())) (hlen : got.length = j.f 0x20 4)
include hread hlen

theorem Mach.decodeJob_writes {d : Decoded} (hd : decodeFrame got true (some (j.f 0x24 4)) = d)
    (hwrite : m1.engWrite j (j.f 0x18 8) (j.f 0x24 4) (chunks 4096 d.out) 0 = (m2, off, none)) :
    m.decodeJob p true j =
      if d.status = 0 ∨ d.status = 0x0400 ∨ d.status = 0x0409
      then m2.jobRan p { j with read := j.f 0x20 4, faulty := d.faulty } d.status d.off
      else m2.jobRan p { j with read := j.f 0x20 4, faulty := d.faulty } d.status (2 ^ 32 * (off / 4096) + d.off) := by
  subst hd
  simp [Mach.decodeJob, hread, hlen, hwrite]

theorem Mach.decodeJob_validates {d : Decoded} (hd : decodeFrame got true none = d) :
    m.decodeJob p false j = m1.jobRan p { j with read := j.f 0x20 4, faulty := d.faulty } d.status d.off := by
  subst hd
  simp [Mach.decodeJob, hread, hlen]

end

end

/-! ## The commands -/

section
variable {s : State} {ctx : Fin 16} {e : Fin 8} {j : Job} (hr : s.m.resting = false) (hdesc : j.descOk = true)
  (hbad : s.m.jobBad (0x10 + e) j = none)
include hr hdesc hbad

theorem exec_compress (fault : Option Nat) (hrun : s.m.toRun (0x10 + e) ctx 1 = some j) :
    exec (.compress e ctx fault) s = .next (s.on (s.m.compressJob (0x10 + e) fault j)) :=
  State.act_runJob _ hr hrun hdesc hbad

theorem exec_decompress (hrun : s.m.toRun (0x10 + e) ctx 2 = some j) :
    exec (.decompress e ctx) s = .next (s.on (s.m.decodeJob (0x10 + e) true j)) :=
  State.act_runJob _ hr hrun hdesc hbad

theorem exec_validate (hrun : s.m.toRun (0x10 + e) ctx 3 = some j) :
    exec (.validate e ctx) s = .next (s.on (s.m.decodeJob (0x10 + e) false j)) :=
  State.act_runJob _ hr hrun hdesc hbad

end

/-- Settles O54: each command runs the job at the head of its context, whose end follows from what its read of the source and its writes
of the destination answered. -/
theorem groatJobs : Obligations.GroatJobs := by
  unfold Obligations.GroatJobs
  intro s ctx e j m1 m2 got off hr hdesc hbad
  refine ⟨fun hrun => ⟨fun hread hlen => ⟨fun hwrite => ?whole, fun hwrite => ?pastLimit, fun i b hb hchk hwrite => ?differs⟩,
      fun x hread hlen hwrite => ?fails, fun hread => ?waits⟩,
    fun hrun hread hlen hwrite => ?decompress, fun hrun hread hlen => ?validate⟩
  case whole => rw [exec_compress hr hdesc hbad none hrun, Mach.compressJob_whole rfl hread hlen hwrite]
  case pastLimit => rw [exec_compress hr hdesc hbad none hrun, Mach.compressJob_pastLimit rfl hread hlen hwrite]
  case differs => rw [exec_compress hr hdesc hbad (some i) hrun, Mach.compressJob_blockDiffers rfl hread hlen hb hchk hwrite]
  case fails => rw [exec_compress hr hdesc hbad none hrun, Mach.compressJob_sourceFails rfl hread hlen hwrite]
  case waits => exact exec_unchanged (exec_compress hr hdesc hbad none hrun) (Mach.compressJob_wait none hread)
  case decompress => rw [exec_decompress hr hdesc hbad hrun, Mach.decodeJob_writes hread hlen rfl hwrite]
  case validate => rw [exec_validate hr hdesc hbad hrun, Mach.decodeJob_validates hread hlen rfl]

end Sys2Proof.Machine
end

section
/-! PROOFS. The machine right after module reset: what its tables read, and the values the spec gives them. -/

namespace Sys2Proof.Machine

/-! ## Tables that list nothing at reset (R178, R198, R202, R446) -/

theorem Mach.reset_thr (k : Nat) : Mach.reset.thr k = Thr.reset := tget_nil Thr.reset k

theorem Mach.reset_tmr (k : Nat) : Mach.reset.tmr k = Tmr.reset := tget_nil Tmr.reset k

theorem Mach.reset_box (k : Nat) : Mach.reset.box k = Box.reset k := tget_nil (Box.reset k) k

/-- No measurement register is listed as written or as failing its check, so each reads zero in every word. -/
theorem Mach.reset_mregWord (n w : Nat) : Mach.reset.mregWord n w = 0 := by
  have hgood : Mach.reset.dgs.mbad.contains n = false := rfl
  have hzero : tget 0 Mach.reset.dgs.mregs n = 0 := tget_nil 0 n
  rw [Mach.mregWord, hgood, hzero]
  exact BitVec.extractLsb'_zero

/-! ## The books and the credit classes (R58, R70, R175, R389)

The 512 SYSTEM buffers of the scheduler are held in ledger 0 and in class 0: those two entries are listed, and what the listing changes is
neither the total of the ledger nor the bounds of the class. -/

theorem Mach.reset_ledger_total (k : Nat) : (Mach.reset.ledger k).total = (Ledger.reset k).total := by
  cases k <;> rfl

theorem Mach.reset_cls_bounds (c : Nat) :
    (Mach.reset.cls c).floor = (Cls.reset c).floor ∧ (Mach.reset.cls c).ceil = (Cls.reset c).ceil := by
  cases c <;> exact ⟨rfl, rfl⟩

/-- In a granary whose listed buffers are n copies of one buffer in use, a test that this buffer passes counts n. -/
theorem Mach.countBufs_replicas {m : Mach} {n : Nat} {b : Buf} {p : Buf → Bool} (hbufs : m.grn.bufs = (List.range n).map fun k => (k, b))
    (hused : b.state ≠ .free) (hp : p b = true) : m.countBufs p = n := by
  have hall : ∀ e ∈ m.grn.bufs, (e.2.state != .free && p e.2) = true := by
    intro e he
    obtain ⟨k, -, rfl⟩ := List.mem_map.mp (hbufs ▸ he)
    simp [hused, hp]
  rw [Mach.countBufs, List.filter_eq_self.mpr hall, hbufs, List.length_map, List.length_range]

theorem Mach.reset_bufs : Mach.reset.grn.bufs = (List.range 512).map fun k => (k, sysBuf 0xC000) := by
  simp only [Mach.reset, Grn.reset]

theorem Mach.reset_scheduler_bufs : Mach.reset.countBufs (fun b => b.owner == 0xC000 && b.cls == 0) = 512 :=
  Mach.countBufs_replicas Mach.reset_bufs (by decide) (by decide)

/-- Settles O6: each value by what its table reads at reset. -/
theorem resetValues : Obligations.ResetValues := by
  unfold Obligations.ResetValues
  refine ⟨fun n w _ _ => Mach.reset_mregWord n w, fun k => ?timers, rfl, fun k => ?mailboxes, ?ledgers, ?floors, ?ceilings,
    Mach.reset_scheduler_bufs, rfl, fun k => ?threads, rfl⟩
  case timers => exact congrArg Tmr.cmp (Mach.reset_tmr k)
  case mailboxes => exact Mach.reset_box k ▸ ⟨rfl, rfl, rfl⟩
  case ledgers => exact (List.map_congr_left fun k _ => Mach.reset_ledger_total k).trans rfl
  case floors => exact (List.map_congr_left fun c _ => (Mach.reset_cls_bounds c).1).trans rfl
  case ceilings => exact (List.map_congr_left fun c _ => (Mach.reset_cls_bounds c).2).trans rfl
  case threads => exact congrArg Thr.state (Mach.reset_thr k)

end Sys2Proof.Machine
end
